-- ==== Sys2Proof/Word.lean ====
section
/-! DEFINITION. Bytes, DRAM words and the numbers of regions, ports and windows.
Source: spec/00_scope.md (Conventions), spec/01_store_controller.md (R1, R2). -/

namespace Sys2Proof

/-- A byte of a frame, of a record or of the DRAM. -/
abbrev Byte := BitVec 8

/-- A word of the DRAM, the unit of the error-correcting code (R2). Its first byte is bits 63..56. -/
abbrev Word := BitVec 64

/-- A capture region, 0..15. -/
abbrev RegionId := Fin 16

/-- A capture port, 0..3. -/
abbrev PortId := Fin 4

/-- A read window, 0..3. -/
abbrev WindowId := Fin 4

end Sys2Proof
end

