-- ==== Sys2Proof/Config.lean ====
section
/-! DEFINITION. What the part fixes (sizes, limits, identity) and the free values that the spec leaves open. -/

namespace Sys2Proof.Config

/-- Bytes of a page (R1). -/
def pageBytes : Nat := 4096
/-- Pages of the store (R1). -/
def storePages : Nat := 16384
/-- Directory pages 0..15, one per region (R1). -/
def directoryPages : Nat := 16
/-- Data pages 16..16383 (R1). -/
def dataPages : Nat := 16368
/-- Words of a page (R2). -/
def pageWords : Nat := 512
/-- Slots of a directory page (R3). -/
def directorySlots : Nat := 2048
/-- The largest seq, 2^48 - 1 (R56). -/
def maxSeq : Nat := 281474976710655
/-- Most entries of the retired list (R28). -/
def retiredListMax : Nat := 512
/-- Entries reported by one RETIRED reply (R35). -/
def retiredReplyMax : Nat := 256
/-- Records a staging queue holds (R103). -/
def stagingMax : Nat := 8
/-- Most requests outstanding (R174). -/
def creditMax : Nat := 8
/-- Most replies between two event frames while an event waits (R178). -/
def runMax : Nat := 4
/-- The fetch guard's count (R14). -/
def fetchGuard : Nat := 8
/-- Ceiling of the correctable-error count (R9). -/
def correctableMax : Nat := 65535
/-- Ceiling of the hit and miss counts and of the reported port counts (R97, R104). -/
def count32Max : Nat := 4294967295
/-- Pool notice threshold after a hard reset (R38). -/
def resetThreshold : Nat := 256
/-- SYNC, the first byte of every frame (R181). -/
def sync : Byte := 0xA5
/-- Identity (R194). -/
def partCode : Nat := 0x2640
def revision : Nat := 0x01

/-- FREE VALUE. The test pattern of the sweep: the value of word `index` of page `page`, "formed from the page number p
and the word index" (R16), in a way the spec does not state. notes/assumptions/6.md. DESIGN CHOICE, safe. -/
opaque sweepPattern (page index : Nat) : Word

/-- FREE VALUE. What the byte at an address holds after a hard reset has abandoned the operation that had begun to
write it: "values with no meaning" (R18). `draw` tells one reset from the next. notes/assumptions/7.md. DESIGN CHOICE, safe. -/
opaque abandonedByte (draw address : Nat) : Byte

end Sys2Proof.Config
end

