-- ==== Sys2Proof/Syntax.lean ====
section
/-! DEFINITION. The commands: one constructor per row of spec/opcode_table.json, in the table's order, with the operands the
spec's text gives the row (the table itself gives none any bits). -/

namespace Sys2Proof

/-- What began a hard reset (R190). -/
inductive ResetCause
  | powerOn | rstN
  deriving DecidableEq, Repr

/-- The INITMODE strap (R15). -/
inductive InitMode
  | sweep | quick
  deriving DecidableEq, Repr

/-- The outcome of reading one word of the DRAM (R2). -/
inductive WordOutcome
  | clean | corrected | uncorrectable
  deriving DecidableEq, Repr

/-- The condition of the DRAM cells at the read of one word: `outcome` is what they make the word read as where no error of it
stands from an earlier read (`clean`: they hold); an error that stands makes it read no better than that (R2). `escaped` is the
data delivered, where it is not the data written ("corruption that the code did not catch", R7; "its data differs from the
pattern", R16); `none` is the ordinary case. notes/assumptions/4.md, 5.md. -/
structure WordRead where
  outcome : WordOutcome
  escaped : Option Word
  deriving DecidableEq, Repr

/-- The commands of the block. A request command (IDENTIFY and below, UNKNOWN_KIND above them) is the request engine taking
the request with that tag and body (R179); its KIND is the constructor's (11.3). notes/assumptions/3.md. -/
inductive Instr
  /-- HARD_RESET: what began it and the straps as sampled: RATE[1:0] and INITMODE. -/
  | hardReset (cause : ResetCause) (rate : BitVec 2) (mode : InitMode)
  /-- SWEEP_STEP_COMPLETE: the words of the read-back whose cells did not hold what was written, by word index. -/
  | sweepStepComplete (words : List (Nat × WordRead))
  /-- DIRECTORY_CLEAR_COMPLETE. -/
  | directoryClearComplete
  /-- BYTE_STROBE: the port, CPn_D, CPn_SOR and CPn_MRK at the strobe. -/
  | byteStrobe (port : PortId) (data : Byte) (sor mrk : Bool)
  /-- RECORD_WRITE_COMPLETE. -/
  | recordWriteComplete
  /-- DIRECTORY_READ_COMPLETE: the condition of the word's cells at the read. -/
  | directoryReadComplete (word : WordRead)
  /-- DIRECTORY_WRITE_COMPLETE: the condition of the word's cells at the read phase. -/
  | directoryWriteComplete (word : WordRead)
  /-- RECORD_READ_COMPLETE: the words of the record whose cells did not hold, by word index within the record. -/
  | recordReadComplete (words : List (Nat × WordOutcome))
  /-- RELEASE_WALK_STEP. -/
  | releaseWalkStep
  /-- RESTART_WALK_BEGIN. -/
  | restartWalkBegin
  /-- RESTART_WALK_STEP. -/
  | restartWalkStep
  /-- FRAME_RECEIVED: the character on HRX that completes the frame, its second CHECK byte. -/
  | frameReceived (data : Byte)
  /-- INTER_BYTE_TIMEOUT. -/
  | interByteTimeout
  /-- LINK_BREAK. -/
  | linkBreak
  /-- TRANSMIT_FRAME_END. -/
  | transmitFrameEnd
  /-- UNKNOWN_KIND: the request's KIND byte, tag and body. -/
  | unknownKind (kind tag : Byte) (body : List Byte)
  /-- IDENTIFY. -/
  | identify (tag : Byte) (body : List Byte)
  /-- STATUS. -/
  | status (tag : Byte) (body : List Byte)
  /-- RESTART. -/
  | restart (tag : Byte) (body : List Byte)
  /-- SET_POOL_NOTICE. -/
  | setPoolNotice (tag : Byte) (body : List Byte)
  /-- RETIRED. -/
  | retired (tag : Byte) (body : List Byte)
  /-- DEFINE. -/
  | define (tag : Byte) (body : List Byte)
  /-- ARM. -/
  | arm (tag : Byte) (body : List Byte)
  /-- TRIGGER. -/
  | trigger (tag : Byte) (body : List Byte)
  /-- STOP. -/
  | stop (tag : Byte) (body : List Byte)
  /-- RELEASE. -/
  | release (tag : Byte) (body : List Byte)
  /-- QUERY. -/
  | query (tag : Byte) (body : List Byte)
  /-- SET_EVENTS. -/
  | setEvents (tag : Byte) (body : List Byte)
  /-- BIND. -/
  | bindPort (tag : Byte) (body : List Byte)
  /-- PORT_QUERY. -/
  | portQuery (tag : Byte) (body : List Byte)
  /-- OPEN. -/
  | openWindow (tag : Byte) (body : List Byte)
  /-- FETCH. -/
  | fetch (tag : Byte) (body : List Byte)
  /-- CLOSE. -/
  | closeWindow (tag : Byte) (body : List Byte)
  /-- WINDOW_QUERY. -/
  | windowQuery (tag : Byte) (body : List Byte)
  /-- CHARACTER_TAKEN: the data bits of the character and its stop bit (`false`: sampled at spacing, a framing error). -/
  | characterTaken (data : Byte) (stopBit : Bool)
  deriving DecidableEq, Repr

end Sys2Proof
end

