-- ==== Sys2Proof/Machine/State.lean ====
section
/-! DEFINITION. The state of the block, block by block as spec/00_scope.md divides it, and its value after a hard reset.
INVENTORY.md, under State, lists every field with its rule and its reset value. -/

namespace Sys2Proof.Machine

/-! ### Named values -/

/-- Device state (R189). -/
inductive DeviceState
  | init | run | restarting
  deriving DecidableEq, Repr

/-- Region state (R40). -/
inductive RegionState
  | unused | idle | armed | triggered | stopped | faulted | releasing
  deriving DecidableEq, Repr

/-- Pin policy of a region (R40). -/
inductive PinPolicy
  | holdWriter | breakPin
  deriving DecidableEq, Repr

/-- Who named the trigger record (R40). -/
inductive TriggerSource
  | host | marker
  deriving DecidableEq, Repr

/-- Why a capture stopped (R40). -/
inductive StopCause
  | postCount | host | limit | fault
  deriving DecidableEq, Repr

/-- Window state (R121). -/
inductive WindowState
  | closed | opened | closing
  deriving DecidableEq, Repr

/-- A window's hold on the pages of its range (R137). -/
inductive Pin
  | none | standing | broken
  deriving DecidableEq, Repr

/-- Writer condition (R109). -/
inductive WriterCondition
  | idle | running | starved
  deriving DecidableEq, Repr

/-- What a page claim waits for (R109). -/
inductive ClaimStage
  | directoryWrite | directoryRead | pinHold
  deriving DecidableEq, Repr

/-- What a fetch waits for (R127). -/
inductive FetchStage
  | lookup | read
  deriving DecidableEq, Repr

/-- What has marked a fetch to end at its current store operation (R132). -/
inductive EndCause
  | close | fault | restart
  deriving DecidableEq, Repr

/-- Which operation retired a page (R28). -/
inductive RetireOrigin
  | sweep | release | restart
  deriving DecidableEq, Repr

/-- Link state (R172). -/
inductive LinkState
  | quiet | active
  deriving DecidableEq, Repr

/-- Request engine condition (10.6). -/
inductive Engine
  | running | held
  deriving DecidableEq, Repr

/-- Line rate (R167). -/
inductive LineRate
  | mbit2 | mbit6 | mbit12 | mbit24
  deriving DecidableEq, Repr

/-- Status of a reply (R187). -/
inductive Status
  | ok | atEnd | notYet | expired
  | badState | badArg | noPages | busy | mediaError | faulted | closed | aborted | notReady | unknownKind | badLength
  deriving DecidableEq, Repr

/-- Cause of a READY (R157). -/
inductive ReadyCause
  | power | pin | restart | link
  deriving DecidableEq, Repr

/-- Cause of a LINK_ERROR (R157). -/
inductive LinkErrorCause
  | badCheck | badLength | truncated | credit
  deriving DecidableEq, Repr

/-- Kind of a MEDIA_ERROR (R147). -/
inductive MediaErrorKind
  | record | directory
  deriving DecidableEq, Repr

/-- Store controller condition (1.5). -/
inductive StoreCondition
  | initializing | serving
  deriving DecidableEq, Repr

/-! ### Host link (chapter 10) -/

/-- A request as accepted: KIND, TAG and body (R174). -/
structure Request where
  kind : Byte
  tag  : Byte
  body : List Byte
  deriving DecidableEq, Repr

/-- A reply made and not yet started (R176). -/
structure Reply where
  tag    : Byte
  status : Status
  body   : List Byte
  deriving DecidableEq, Repr

/-- TYPE of an outbound frame (R181). -/
inductive FrameType
  | reply | event
  deriving DecidableEq, Repr

/-- An outbound frame as filled at its start (R177, R181). -/
structure OutFrame where
  type           : FrameType
  tagOrKind      : Byte
  credit         : Byte
  statusOrSource : Byte
  body           : List Byte
  deriving DecidableEq, Repr

/-- The host link with its queues, the transmitter and the request engine's condition. `kept` is the partial frame: every
byte taken since the SYNC (R168); the receiver's phase is computed from it. `transmitting` is the frame being sent. -/
structure Link where
  lineRate     : LineRate
  kept         : List Byte
  state        : LinkState
  epoch        : Byte
  requests     : List Request
  replies      : List Reply
  outstanding  : Nat
  transmitting : Option OutFrame
  runCount     : Nat
  engine       : Engine
  deriving DecidableEq, Repr

/-- The RESTART being served: its tag and whether a break has made it stale (R175). -/
structure RunningRestart where
  tag   : Byte
  stale : Bool
  deriving DecidableEq, Repr

/-! ### Event queue (chapter 9) -/

/-- The key of an event: its source and its kind (R155). -/
inductive EventKey
  | ready | linkError | poolLow
  | triggered (region : RegionId) | stopped (region : RegionId) | mark (region : RegionId)
  | starved (region : RegionId) | mediaError (region : RegionId)
  | pinBroken (window : WindowId)
  | overrun (port : PortId)
  deriving DecidableEq, Repr

/-- The payload of an event (R157). READY's epoch and retired count are filled at its frame start (R160). -/
inductive Payload
  | ready (cause : ReadyCause)
  | linkError (cause : LinkErrorCause) (tag : Option Byte)
  | poolLow (available reservedTotal threshold : Nat)
  | triggered (seq : Nat) (source : TriggerSource)
  | stopped (cause : Option StopCause) (committed : Nat) (triggerSeq : Option Nat)
  | mark (committed : Nat)
  | starved (seq : Nat) (windows : List WindowId)
  | mediaError (page : Nat) (kind : MediaErrorKind) (seq : Option Nat)
  | pinBroken (region : RegionId) (firstLost : Nat)
  | overrun (total : Nat)
  deriving DecidableEq, Repr

/-- A pending entry (R156); its position is its place in the list. -/
structure EventEntry where
  key      : EventKey
  payload  : Payload
  repeated : Bool
  deriving DecidableEq, Repr

/-- The event queue: the pending list, head first, and the ready cause (R163). -/
structure EventQueue where
  entries    : List EventEntry
  readyCause : ReadyCause
  deriving DecidableEq, Repr

/-! ### Store controller (chapter 1) -/

/-- Whom a directory read is issued for (R10). -/
inductive Requester
  | writer (port : PortId) | window (window : WindowId)
  deriving DecidableEq, Repr

/-- A directory operation (R10). -/
inductive DirectoryOp
  | read (region : RegionId) (slot : Nat) (requester : Requester)
  | write (region : RegionId) (slot page : Nat) (port : PortId)
  deriving DecidableEq, Repr

/-- A record write issued for a port: the region it was issued for, its place and the record (R5, R111). -/
structure RecordWrite where
  region : RegionId
  page   : Nat
  offset : Nat
  bytes  : List Byte
  deriving DecidableEq, Repr

/-- A record read issued for a window's fetch (R6, R128). -/
structure RecordRead where
  page   : Nat
  offset : Nat
  length : Nat
  deriving DecidableEq, Repr

/-- The operation that holds the store port (R4). -/
inductive StoreOp
  | recordWrite (port : PortId) (op : RecordWrite)
  | recordRead (window : WindowId) (op : RecordRead)
  | directory (op : DirectoryOp)
  | sweepStep (page : Nat)
  | directoryClear (page : Nat)
  deriving DecidableEq, Repr

/-- The store controller. `memory` is the DRAM's contents: (address, byte) pairs in the form of `Memory.wf`; `errors` is the words
in which an error stands (R2; notes/assumptions/4.md), with what they read as, in the form of `wordErrorsWf`: the data and check
bits of every other word agree. `writes` and `reads` are the record operations issued and not yet granted, one place a port and
one a window. -/
structure Store where
  condition     : StoreCondition
  initMode      : InitMode
  initProgress  : Nat
  memory        : List Host.Cell
  errors        : List (Nat × WordOutcome)
  port          : Option StoreOp
  directoryOps  : List DirectoryOp
  writes        : Vector (Option RecordWrite) 4
  reads         : Vector (Option RecordRead) 4
  portPointer   : Fin 4
  windowPointer : Fin 4
  fetchWait     : Nat
  correctable   : Nat
  deriving DecidableEq, Repr

/-! ### Page allocator (chapter 2) -/

/-- An entry of the page ownership table (R19). -/
inductive PageEntry
  | free
  | owned (owner : RegionId) (suspect : Bool)
  | retired
  deriving DecidableEq, Repr

/-- An entry of the retired list (R28). -/
structure RetiredEntry where
  page   : Nat
  origin : RetireOrigin
  region : Option RegionId
  deriving DecidableEq, Repr

/-- The release scanner (2.8), with the stale mark of the RELEASE it serves (R175). -/
inductive Scanner
  | idle
  | releaseWalk (region : RegionId) (nextPage returned retired : Nat) (tag : Byte) (stale : Bool)
  | restartWalk (nextPage : Nat)
  deriving DecidableEq, Repr

/-- The page allocator. `table` lists the pages that are not FREE, by rising page number. -/
structure Allocator where
  table             : List (Nat × PageEntry)
  pool              : List Nat
  reservations      : Vector Nat 16
  ownedPages        : Vector Nat 16
  reservedTotal     : Nat
  retiredList       : List RetiredEntry
  retiredIncomplete : Bool
  scanner           : Scanner
  threshold         : Nat
  armed             : Bool
  deriving DecidableEq, Repr

/-! ### Slot cache (chapter 5) -/

/-- A valid entry of the slot cache (R85). -/
structure CacheEntry where
  region : RegionId
  slot   : Nat
  page   : Nat
  deriving DecidableEq, Repr

/-- The slot cache (R85, R86, R97); an invalid entry is `none`. -/
structure Cache where
  entries : Vector (Option CacheEntry) 24
  victim  : Fin 24
  hits    : Nat
  misses  : Nat
  deriving DecidableEq, Repr

/-! ### Capture regions (chapters 3 and 4) -/

/-- The parameters of a region (R40). -/
structure Params where
  sizeCode     : Nat
  quota        : Nat
  anchor       : Nat
  postCount    : Nat
  pinPolicy    : PinPolicy
  markInterval : Nat
  deriving DecidableEq, Repr

/-- The trigger of a capture (R40). -/
structure Trigger where
  seq    : Nat
  source : TriggerSource
  deriving DecidableEq, Repr

/-- A region record (R40). Bit i of `eventMask` is bit i of the event mask byte (R182). -/
structure Region where
  state        : RegionState
  params       : Option Params
  eventMask    : BitVec 5
  committed    : Nat
  trigger      : Option Trigger
  stopCause    : Option StopCause
  rollingCount : Nat
  wrapLength   : Option Nat
  oldest       : Nat
  faultPage    : Option Nat
  boundPort    : Option PortId
  suspect      : Bool
  deriving DecidableEq, Repr

/-! ### Capture ports and writers (chapter 6) -/

/-- A record being assembled (R99). -/
structure Assembly where
  bytes  : List Byte
  marker : Bool
  size   : Nat
  deriving DecidableEq, Repr

/-- A staged record (R103). -/
structure StagedRecord where
  bytes  : List Byte
  marker : Bool
  deriving DecidableEq, Repr

/-- The six counts of a port (R104). -/
structure PortCounts where
  arrived   : Nat
  stored    : Nat
  dropIdle  : Nat
  dropFull  : Nat
  dropShort : Nat
  dropFlush : Nat
  deriving DecidableEq, Repr

/-- The page of the logical page being filled (R109). -/
structure FillPage where
  page    : Nat
  logical : Nat
  deriving DecidableEq, Repr

/-- The recycle part of a claim: L_old and the slot s (R77). -/
structure Recycle where
  oldPage : Nat
  slot    : Nat
  deriving DecidableEq, Repr

/-- A page claim (R109): L_new, its stage, the recycle's fields, and the page claimed or found. -/
structure Claim where
  newPage : Nat
  stage   : ClaimStage
  recycle : Option Recycle
  page    : Option Nat
  deriving DecidableEq, Repr

/-- A capture port with its writer (R99, R103, R104, R109, R119). -/
structure Port where
  binding       : Option RegionId
  markerEnable  : Bool
  overrunEnable : Bool
  halted        : Bool
  assembly      : Option Assembly
  staging       : List StagedRecord
  counts        : PortCounts
  writer        : WriterCondition
  fillPage      : Option FillPage
  claim         : Option Claim
  inFlight      : Option Nat
  deriving DecidableEq, Repr

/-! ### Read windows (chapter 7) -/

/-- A fetch record (R127), with the stale mark of its request (R175). -/
structure Fetch where
  tag      : Byte
  stale    : Bool
  asked    : Nat
  total    : Nat
  firstSeq : Nat
  gathered : List (List Byte)
  current  : Nat
  stage    : FetchStage
  endCause : Option EndCause
  deriving DecidableEq, Repr

/-- The tag of a waiting CLOSE (R121, R135), with its stale mark (R175). -/
structure CloseTag where
  tag   : Byte
  stale : Bool
  deriving DecidableEq, Repr

/-- A window record (R121). -/
structure Window where
  state    : WindowState
  region   : RegionId
  first    : Nat
  last     : Nat
  cursor   : Nat
  pin      : Pin
  fetch    : Option Fetch
  closeTag : Option CloseTag
  deriving DecidableEq, Repr

/-! ### The whole machine -/

/-- The state of the block. `pending` is the queue of waiting commands and `freeCount` the counter that tells one draw of
free values from the next: these two are the model's own. -/
structure State where
  pending   : List Instr
  freeCount : Nat
  device    : DeviceState
  restart   : Option RunningRestart
  link      : Link
  events    : EventQueue
  store     : Store
  alloc     : Allocator
  cache     : Cache
  regions   : Vector Region 16
  ports     : Vector Port 4
  windows   : Vector Window 4
  deriving DecidableEq, Repr

/-- Why the block stops with a fault. -/
inductive Fault
  /-- Raised by the completion of a store operation that names an address outside the store's pages (R1). No state that a
  run from reset reaches holds such an operation. Safe: the hardware has no such address. -/
  | outsideStore
  deriving DecidableEq, Repr

/-- Why the block refuses a command. -/
inductive Refusal
  /-- Raised by `exec` for a command that has no meaning yet; no command of the table is refused so. Safe. -/
  | notModelled (mnemonic : String)
  deriving DecidableEq, Repr

/-! ### Reset values -/

/-- The host link after a hard reset (R180). -/
def Link.reset (rate : LineRate) : Link where
  lineRate := rate
  kept := []
  state := .quiet
  epoch := 0
  requests := []
  replies := []
  outstanding := 0
  transmitting := none
  runCount := 0
  engine := .running

/-- The event queue after a hard reset (R165). -/
def EventQueue.reset (cause : ReadyCause) : EventQueue where
  entries := []
  readyCause := cause

/-- The store controller as it begins initialization (R15, R18), over the DRAM contents the reset leaves. -/
def Store.reset (mode : InitMode) (memory : List Host.Cell) (errors : List (Nat × WordOutcome)) : Store where
  condition := .initializing
  initMode := mode
  initProgress := 0
  memory := memory
  errors := errors
  port := some (match mode with | .sweep => .sweepStep 0 | .quick => .directoryClear 0)
  directoryOps := []
  writes := Vector.replicate 4 none
  reads := Vector.replicate 4 none
  portPointer := 3
  windowPointer := 3
  fetchWait := 0
  correctable := 0

/-- The page allocator after a hard reset (R38, R39). -/
def Allocator.reset : Allocator where
  table := []
  pool := []
  reservations := Vector.replicate 16 0
  ownedPages := Vector.replicate 16 0
  reservedTotal := 0
  retiredList := []
  retiredIncomplete := false
  scanner := .idle
  threshold := Config.resetThreshold
  armed := true

/-- The slot cache after a hard reset (R98). -/
def Cache.reset : Cache where
  entries := Vector.replicate 24 none
  victim := 0
  hits := 0
  misses := 0

/-- A region record after a hard reset (R67). -/
def Region.reset : Region where
  state := .unused
  params := none
  eventMask := 0
  committed := 0
  trigger := none
  stopCause := none
  rollingCount := 0
  wrapLength := none
  oldest := 0
  faultPage := none
  boundPort := none
  suspect := false

/-- The six counts at 0 (R104). -/
def PortCounts.zero : PortCounts := ⟨0, 0, 0, 0, 0, 0⟩

/-- A capture port after a hard reset (R120). -/
def Port.reset : Port where
  binding := none
  markerEnable := false
  overrunEnable := false
  halted := false
  assembly := none
  staging := []
  counts := PortCounts.zero
  writer := .idle
  fillPage := none
  claim := none
  inFlight := none

/-- A window after a hard reset (R143). -/
def Window.reset : Window where
  state := .closed
  region := 0
  first := 0
  last := 0
  cursor := 0
  pin := .none
  fetch := none
  closeTag := none

/-- The machine right after reset: power-on, nothing written in the DRAM, no command waiting. The straps are RATE 0,0 and
INITMODE QUICK: DESIGN CHOICE, unsafe, notes/assumptions/9.md. -/
def State.reset : State where
  pending := []
  freeCount := 0
  device := .init
  restart := none
  link := Link.reset .mbit2
  events := EventQueue.reset .power
  store := Store.reset .quick [] []
  alloc := Allocator.reset
  cache := Cache.reset
  regions := Vector.replicate 16 Region.reset
  ports := Vector.replicate 4 Port.reset
  windows := Vector.replicate 4 Window.reset

end Sys2Proof.Machine
end

