-- ==== Sys2Proof/Machine/Operands.lean ====
section
/-! DEFINITION. The operands of the commands: the byte order of multi-byte fields, the kinds and body lengths of requests, the
fields of request bodies (11.2, 11.3), and what the words of a store operation gave (R2). -/

namespace Sys2Proof.Machine

/-! ### Byte order (00 Conventions: most significant byte first) -/

/-- The `n` bytes of a number, most significant byte first; a number too large for them loses its high bits. -/
def beBytes : Nat → Nat → List Byte
  | 0, _ => []
  | n + 1, x => BitVec.ofNat 8 (x / 256 ^ n) :: beBytes n x

/-- The number that bytes give, most significant byte first. -/
def beValue (bytes : List Byte) : Nat :=
  bytes.foldl (fun acc b => acc * 256 + b.toNat) 0

/-- The field of `n` bytes at an offset of a body. -/
def field (body : List Byte) (offset n : Nat) : Nat :=
  beValue ((body.drop offset).take n)

/-! ### Requests -/

/-- Body length of each request kind (11.3); absent for a KIND that is not one of the eighteen request codes. -/
def requestBodyLength (kind : Byte) : Option Nat :=
  if kind = 0x01 then some 0        -- IDENTIFY
  else if kind = 0x02 then some 0   -- STATUS
  else if kind = 0x03 then some 0   -- RESTART
  else if kind = 0x04 then some 2   -- SET_POOL_NOTICE
  else if kind = 0x05 then some 2   -- RETIRED
  else if kind = 0x10 then some 14  -- DEFINE
  else if kind = 0x11 then some 1   -- ARM
  else if kind = 0x12 then some 1   -- TRIGGER
  else if kind = 0x13 then some 1   -- STOP
  else if kind = 0x14 then some 1   -- RELEASE
  else if kind = 0x15 then some 1   -- QUERY
  else if kind = 0x16 then some 2   -- SET_EVENTS
  else if kind = 0x20 then some 3   -- BIND
  else if kind = 0x21 then some 1   -- PORT_QUERY
  else if kind = 0x30 then some 15  -- OPEN
  else if kind = 0x31 then some 3   -- FETCH
  else if kind = 0x32 then some 1   -- CLOSE
  else if kind = 0x33 then some 1   -- WINDOW_QUERY
  else none

/-- The kinds that are answered in INIT (R183): IDENTIFY and STATUS. -/
def answeredInInit (kind : Byte) : Bool := kind = 0x01 || kind = 0x02

/-- A region number field, absent when it is out of range (R182). -/
def regionArg (x : Nat) : Option RegionId :=
  if h : x < 16 then some ⟨x, h⟩ else none

/-- A port number field, absent when it is out of range (R182). -/
def portArg (x : Nat) : Option PortId :=
  if h : x < 4 then some ⟨x, h⟩ else none

/-- A window number field, absent when it is out of range (R182). -/
def windowArg (x : Nat) : Option WindowId :=
  if h : x < 4 then some ⟨x, h⟩ else none

/-- A BIND target: a region, none (0xFF), or out of range (R182). -/
def targetArg (x : Nat) : Option (Option RegionId) :=
  if x = 0xFF then some none else (regionArg x).map some

/-- A pin policy field, absent when it is out of range (R182). -/
def policyArg (x : Nat) : Option PinPolicy :=
  if x = 0 then some .holdWriter else if x = 1 then some .breakPin else none

/-- The parameters of a DEFINE (11.3), absent when any of them is out of its range (R44). -/
def paramsArg (body : List Byte) : Option Params :=
  let c := field body 1 1
  let q := field body 2 2
  let a := field body 4 2
  let p := field body 6 4
  let m := field body 11 3
  match policyArg (field body 10 1) with
  | none => none
  | some policy =>
    if 4 ≤ c ∧ c ≤ 12 ∧ 2 ≤ q ∧ q ≤ 2048 ∧ a + 2 ≤ q ∧ 1 ≤ p ∧ p ≤ 4294967295 ∧ m ≤ 16777215 then
      some ⟨c, q, a, p, policy, m⟩
    else none

/-! ### The condition of the cells (R2) -/

/-- The worse of two outcomes: clean, then corrected, then uncorrectable. -/
def worseOutcome : WordOutcome → WordOutcome → WordOutcome
  | .clean, o => o
  | .corrected, .clean => .corrected
  | .corrected, o => o
  | .uncorrectable, _ => .uncorrectable

/-- The error that stands in a word after a read (R2, R144): a corrected word keeps its error; any other outcome leaves what
stood, so that after an uncorrectable read the cells decide again. -/
def errorAfterRead (standing outcome : WordOutcome) : WordOutcome :=
  if outcome = .corrected then .corrected else standing

/-- The cells of a word hold: clean, with the data written. -/
def goodRead : WordRead := ⟨.clean, none⟩

/-- The condition of word `i`, from a list of the words whose cells did not hold what was written. -/
def wordReadAt (words : List (Nat × WordRead)) (i : Nat) : WordRead :=
  match words.find? (fun w => w.1 == i) with
  | some w => w.2
  | none => goodRead

/-- The condition of word `i`, from a list of the words whose cells did not hold. -/
def wordOutcomeAt (words : List (Nat × WordOutcome)) (i : Nat) : WordOutcome :=
  match words.find? (fun w => w.1 == i) with
  | some w => w.2
  | none => .clean

/-- How many of the first `n` words read corrected. -/
def correctedWords (outcome : Nat → WordOutcome) (n : Nat) : Nat :=
  (List.range n).countP (fun i => outcome i = .corrected)

/-- Whether one of the first `n` words read uncorrectable. -/
def anyUncorrectable (outcome : Nat → WordOutcome) (n : Nat) : Bool :=
  (List.range n).any (fun i => outcome i = .uncorrectable)

end Sys2Proof.Machine
end

