-- ==== Sys2Proof/WellFormed.lean ====
section
/-! DEFINITION. What a well-formed command is: the checks on the operands that the spec's text gives the rows. A meaning is
given to every command, well-formed or not; the checks say which commands the block's surroundings can send. -/

namespace Sys2Proof

/-- Word numbers strictly rising and below a limit. -/
def indicesOk (limit : Nat) (indices : List Nat) : Bool :=
  indices.all (· < limit) && decide (indices.Pairwise (· < ·))

/-- An uncorrectable word delivers no data (R2). -/
def WordRead.ok (w : WordRead) : Bool := w.outcome ≠ .uncorrectable || w.escaped.isNone

/-- A request body: LENGTH is at most 64, so a body is 0..62 bytes (R168, R181). -/
def bodyOk (body : List Byte) : Bool := body.length ≤ 62

/-- Well-formedness of a command. -/
def Instr.wellFormed : Instr → Bool
  | .hardReset _ _ _ => true
  | .sweepStepComplete words => indicesOk Config.pageWords (words.map (·.1)) && words.all (fun w => w.2.ok)
  | .directoryClearComplete => true
  | .byteStrobe _ _ _ _ => true
  | .recordWriteComplete => true
  | .directoryReadComplete word => word.ok
  | .directoryWriteComplete word => word.ok
  | .recordReadComplete words => indicesOk Config.pageWords (words.map (·.1)) && words.all (fun w => w.2 ≠ .clean)
  | .releaseWalkStep => true
  | .restartWalkBegin => true
  | .restartWalkStep => true
  | .frameReceived _ => true
  | .interByteTimeout => true
  | .linkBreak => true
  | .transmitFrameEnd => true
  | .unknownKind kind _ body => (Machine.requestBodyLength kind).isNone && bodyOk body
  | .identify _ body => bodyOk body
  | .status _ body => bodyOk body
  | .restart _ body => bodyOk body
  | .setPoolNotice _ body => bodyOk body
  | .retired _ body => bodyOk body
  | .define _ body => bodyOk body
  | .arm _ body => bodyOk body
  | .trigger _ body => bodyOk body
  | .stop _ body => bodyOk body
  | .release _ body => bodyOk body
  | .query _ body => bodyOk body
  | .setEvents _ body => bodyOk body
  | .bindPort _ body => bodyOk body
  | .portQuery _ body => bodyOk body
  | .openWindow _ body => bodyOk body
  | .fetch _ body => bodyOk body
  | .closeWindow _ body => bodyOk body
  | .windowQuery _ body => bodyOk body
  | .characterTaken _ _ => true

end Sys2Proof
end

