-- ==== Sys2Proof/Decode.lean ====
section
/-! DEFINITION. The command that a word spells by the bits of spec/opcode_table.json: the table gives no row any bits
("fields" is empty in every row, and the reader counts 35 rows unread), so no word spells a command.
notes/assumptions/19.md. -/

namespace Sys2Proof

/-- The command a word spells by the table's bits: none, for the table gives none. -/
def decodeTableWord (_nbits _w : Nat) : Option Instr := none

end Sys2Proof
end

