-- ==== Sys2Proof/Machine/Flags.lean ====
section
/-! DEFINITION. The codes of named values, the flags bytes, and the frame check (10.2, 11.1, 11.2, 11.5, 11.7). -/

namespace Sys2Proof.Machine

/-! ### Codes (R182) -/

/-- Region state code (R182). -/
def RegionState.code : RegionState → Byte
  | .unused => 0x00 | .idle => 0x01 | .armed => 0x02 | .triggered => 0x03
  | .stopped => 0x04 | .faulted => 0x05 | .releasing => 0x06

/-- Device state code (R182). -/
def DeviceState.code : DeviceState → Byte
  | .init => 0x00 | .run => 0x01 | .restarting => 0x02

/-- Pin policy code (R182). -/
def PinPolicy.code : PinPolicy → Byte
  | .holdWriter => 0x00 | .breakPin => 0x01

/-- Pin code (R182). -/
def Pin.code : Pin → Byte
  | .none => 0x00 | .standing => 0x01 | .broken => 0x02

/-- Window state code (R182). -/
def WindowState.code : WindowState → Byte
  | .closed => 0x00 | .opened => 0x01 | .closing => 0x02

/-- Writer condition code (R182). -/
def WriterCondition.code : WriterCondition → Byte
  | .idle => 0x00 | .running => 0x01 | .starved => 0x02

/-- Claim stage code, 0x00 with no claim (R182). -/
def claimStageCode : Option ClaimStage → Byte
  | none => 0x00 | some .directoryWrite => 0x01 | some .directoryRead => 0x02 | some .pinHold => 0x03

/-- Stop cause code, 0x00 when absent (R182). -/
def stopCauseCode : Option StopCause → Byte
  | none => 0x00 | some .postCount => 0x01 | some .host => 0x02 | some .limit => 0x03 | some .fault => 0x04

/-- Trigger source code (R182). -/
def TriggerSource.code : TriggerSource → Byte
  | .host => 0x00 | .marker => 0x01

/-- READY cause code (R182). -/
def ReadyCause.code : ReadyCause → Byte
  | .power => 0x00 | .pin => 0x01 | .restart => 0x02 | .link => 0x03

/-- LINK_ERROR cause code (R182). -/
def LinkErrorCause.code : LinkErrorCause → Byte
  | .badCheck => 0x00 | .badLength => 0x01 | .truncated => 0x02 | .credit => 0x03

/-- Media error kind code (R182). -/
def MediaErrorKind.code : MediaErrorKind → Byte
  | .record => 0x00 | .directory => 0x01

/-- Retired entry origin code (R182). -/
def RetireOrigin.code : RetireOrigin → Byte
  | .sweep => 0x00 | .release => 0x01 | .restart => 0x02

/-- Status code (R187). -/
def Status.code : Status → Byte
  | .ok => 0x00 | .atEnd => 0x01 | .notYet => 0x02 | .expired => 0x03
  | .badState => 0x10 | .badArg => 0x11 | .noPages => 0x12 | .busy => 0x13 | .mediaError => 0x14
  | .faulted => 0x15 | .closed => 0x16 | .aborted => 0x17 | .notReady => 0x18 | .unknownKind => 0x19
  | .badLength => 0x1A

/-- A region, port or none as one byte, 0xFF for none (R182). -/
def optionalNumber {n : Nat} : Option (Fin n) → Byte
  | none => 0xFF
  | some x => BitVec.ofNat 8 x.val

/-- A number as one byte. -/
def numberByte (x : Nat) : Byte := BitVec.ofNat 8 x

/-- A flags byte from its bits, bit 0 first. DESIGN CHOICE, unsafe: the bits that 11.5 does not name in a reply's flags byte are 0;
notes/assumptions/28.md. -/
def flagBits : List Bool → Byte
  | [] => 0
  | b :: bs => (if b then 1 else 0) + 2 * flagBits bs

/-- The event mask bit of a key: present for the five region kinds, with the region (R66, R182). -/
def EventKey.maskBit : EventKey → Option (RegionId × Nat)
  | .triggered r => some (r, 0)
  | .stopped r => some (r, 1)
  | .mark r => some (r, 2)
  | .starved r => some (r, 3)
  | .mediaError r => some (r, 4)
  | _ => none

/-- KIND of an event frame (R185). -/
def EventKey.kindCode : EventKey → Byte
  | .ready => 0x80 | .linkError => 0x81 | .poolLow => 0x82 | .triggered _ => 0x83 | .stopped _ => 0x84
  | .mark _ => 0x85 | .starved _ => 0x86 | .mediaError _ => 0x87 | .pinBroken _ => 0x88 | .overrun _ => 0x89

/-- SOURCE of an event frame (R181). -/
def EventKey.sourceCode : EventKey → Byte
  | .ready => 0xFF | .linkError => 0xFF | .poolLow => 0xFF
  | .triggered r => numberByte r.val | .stopped r => numberByte r.val | .mark r => numberByte r.val
  | .starved r => numberByte r.val | .mediaError r => numberByte r.val
  | .pinBroken w => numberByte w.val
  | .overrun p => numberByte p.val

/-- TYPE of an outbound frame (R181). -/
def FrameType.code : FrameType → Byte
  | .reply => 0x01 | .event => 0x02

/-! ### Line rate (R167) -/

/-- The rate that RATE[1:0] selects (R167). -/
def lineRateOf (strap : BitVec 2) : LineRate :=
  if strap = 0 then .mbit2 else if strap = 1 then .mbit6 else if strap = 2 then .mbit12 else .mbit24

/-! ### The frame check (R169) -/

/-- One bit of the check, most significant bit first: x^16 + x^12 + x^5 + 1. -/
def checkBit (crc : BitVec 16) (bit : Bool) : BitVec 16 :=
  if crc.msb ^^ bit then (crc <<< 1) ^^^ 0x1021 else crc <<< 1

/-- One byte of the check, entered most significant bit first. -/
def checkByte (crc : BitVec 16) (b : Byte) : BitVec 16 :=
  [7, 6, 5, 4, 3, 2, 1, 0].foldl (fun c i => checkBit c (b.getLsbD i)) crc

/-- The check over bytes, from the initial value 0xFFFF, with no final inversion. -/
def frameCheck (bytes : List Byte) : BitVec 16 :=
  bytes.foldl checkByte 0xFFFF

/-- The bytes of an outbound frame on HTX, in the order sent: SYNC, LENGTH, the header, the body, CHECK (R177, R181). -/
def OutFrame.lineBytes (f : OutFrame) : List Byte :=
  let checked := beBytes 2 (4 + f.body.length) ++ [f.type.code, f.tagOrKind, f.credit, f.statusOrSource] ++ f.body
  Config.sync :: (checked ++ beBytes 2 (frameCheck checked).toNat)

end Sys2Proof.Machine
end

