-- ==== Sys2Proof/Machine/Ops.lean ====
section
/-! DEFINITION. The named operations over the state: block accessors, the DRAM's memory, the ownership table, and the
arithmetic of records, logical pages and slots (chapters 1, 2 and 4). -/

namespace Sys2Proof.Machine

/-! ### Blocks -/

def State.setLink (s : State) (x : Link) : State := { s with link := x }
def State.setEvents (s : State) (x : EventQueue) : State := { s with events := x }
def State.setStore (s : State) (x : Store) : State := { s with store := x }
def State.setAlloc (s : State) (x : Allocator) : State := { s with alloc := x }
def State.setCache (s : State) (x : Cache) : State := { s with cache := x }
def State.setDevice (s : State) (x : DeviceState) : State := { s with device := x }
def State.setRestart (s : State) (x : Option RunningRestart) : State := { s with restart := x }
def State.setRegions (s : State) (x : Vector Region 16) : State := { s with regions := x }
def State.setPorts (s : State) (x : Vector Port 4) : State := { s with ports := x }
def State.setWindows (s : State) (x : Vector Window 4) : State := { s with windows := x }

/-- The record of a region. -/
def State.region (s : State) (r : RegionId) : Region := s.regions.get r
/-- The record of a port. -/
def State.port (s : State) (p : PortId) : Port := s.ports.get p
/-- The record of a window. -/
def State.window (s : State) (w : WindowId) : Window := s.windows.get w

def State.setRegion (s : State) (r : RegionId) (x : Region) : State := s.setRegions (s.regions.set r.val x r.isLt)
def State.setPort (s : State) (p : PortId) (x : Port) : State := s.setPorts (s.ports.set p.val x p.isLt)
def State.setWindow (s : State) (w : WindowId) (x : Window) : State := s.setWindows (s.windows.set w.val x w.isLt)

/-- Outstanding reservation of a region (R20). -/
def State.reservation (s : State) (r : RegionId) : Nat := s.alloc.reservations.get r
/-- Owned-page count of a region (R20). -/
def State.owned (s : State) (r : RegionId) : Nat := s.alloc.ownedPages.get r

/-! ### Memory: the contents of the DRAM (R1 to R3)

A sorted list of (address, byte); the address of a byte is page * 4096 + offset. An unlisted address reads as 0x00 and no
entry holds 0x00. DESIGN CHOICE, unsafe: the spec gives the DRAM no contents at power-on; notes/assumptions/8.md. -/

/-- What a byte of the DRAM that nothing has written reads as. -/
def Memory.unwritten : Byte := 0x00

/-- The canonical form: addresses strictly rising, and no entry equal to what an unlisted address reads as. -/
abbrev Memory.wf (m : List Host.Cell) : Prop :=
  m.Pairwise (fun a b => a.1 < b.1) ∧ ∀ c ∈ m, c.2 ≠ Memory.unwritten

/-- One byte. -/
def Memory.read (m : List Host.Cell) (a : Nat) : Byte :=
  match m.find? (fun c => c.1 == a) with
  | some c => c.2
  | none => Memory.unwritten

/-- The cells of bytes from an address on, in the canonical form. -/
def Memory.cells (a : Nat) : List Byte → List Host.Cell
  | [] => []
  | b :: bs => if b = Memory.unwritten then Memory.cells (a + 1) bs else (a, b) :: Memory.cells (a + 1) bs

/-- Bytes stored from an address on; every other byte is as it was. -/
def Memory.write (m : List Host.Cell) (a : Nat) (bytes : List Byte) : List Host.Cell :=
  m.filter (fun c => c.1 < a) ++ Memory.cells a bytes ++ m.filter (fun c => a + bytes.length ≤ c.1)

/-- `n` bytes from an address on. -/
def Memory.readBytes (m : List Host.Cell) (a n : Nat) : List Byte :=
  (List.range n).map (fun i => Memory.read m (a + i))

/-- The bytes of a word, its first byte its bits 63..56. -/
def wordBytes (w : Word) : List Byte := beBytes 8 w.toNat

/-- The word at an address. -/
def Memory.readWord (m : List Host.Cell) (a : Nat) : Word :=
  BitVec.ofNat 64 (beValue (Memory.readBytes m a 8))

/-! ### The words in which an error stands (R2)

Word n of the store is word n mod 512 of page n / 512; a word that is not listed reads clean while its cells hold.
notes/assumptions/4.md. -/

/-- The canonical form: words strictly rising, and none listed as clean. -/
abbrev wordErrorsWf (e : List (Nat × WordOutcome)) : Prop :=
  e.Pairwise (fun a b => a.1 < b.1) ∧ ∀ x ∈ e, x.2 ≠ .clean

/-- What a word reads as, at best, until it is written. -/
def wordError (e : List (Nat × WordOutcome)) (n : Nat) : WordOutcome :=
  match e.find? (fun x => x.1 == n) with
  | some x => x.2
  | none => .clean

/-- `count` words from `first` on take these conditions; every other word keeps its own. -/
def setWordErrors (e : List (Nat × WordOutcome)) (first count : Nat) (condition : Nat → WordOutcome) : List (Nat × WordOutcome) :=
  e.filter (fun x => x.1 < first)
    ++ (List.range count).filterMap (fun i => if condition i = .clean then none else some (first + i, condition i))
    ++ e.filter (fun x => first + count ≤ x.1)

/-- `count` words from `first` on written with fresh check bits (R2). -/
def freshWords (e : List (Nat × WordOutcome)) (first count : Nat) : List (Nat × WordOutcome) :=
  setWordErrors e first count (fun _ => .clean)

/-! ### Slots (R3) -/

/-- The word of the store that holds slot `s` of the directory page of region `g` (R3). -/
def slotWord (g : RegionId) (s : Nat) : Nat := g.val * Config.pageWords + s / 4

/-- Address of the word that holds slot `s` of the directory page of region `g` (R3). -/
def slotWordAddress (g : RegionId) (s : Nat) : Nat := g.val * Config.pageBytes + s / 4 * 8

/-- The value of slot `s` in its word (R3): bytes (s mod 4) * 2 and the one after it, high byte first. -/
def slotOfWord (w : Word) (s : Nat) : Nat := beValue (((wordBytes w).drop (s % 4 * 2)).take 2)

/-- The word with slot `s` replaced by `v` (R8). -/
def wordWithSlot (w : Word) (s v : Nat) : List Byte :=
  (wordBytes w).take (s % 4 * 2) ++ beBytes 2 v ++ (wordBytes w).drop (s % 4 * 2 + 2)

/-- The test pattern of a page (R16). -/
def patternPage (page : Nat) : List Byte :=
  (List.range Config.pageWords).flatMap (fun i => wordBytes (Config.sweepPattern page i))

/-- Whether a store operation addresses one of the store's pages, and lies in it (R1). -/
def StoreOp.inStore : StoreOp → Bool
  | .recordWrite _ w => w.page < Config.storePages && w.offset + w.bytes.length ≤ Config.pageBytes
  | .recordRead _ r => r.page < Config.storePages && r.offset + r.length ≤ Config.pageBytes
  | .directory (.read _ slot _) => slot < Config.directorySlots
  | .directory (.write _ slot _ _) => slot < Config.directorySlots
  | .sweepStep page => page < Config.storePages
  | .directoryClear page => page < Config.directoryPages

/-- The addresses that an operation has begun to write: the first and how many (R18). -/
def StoreOp.writeSpan : StoreOp → Nat × Nat
  | .recordWrite _ w => (w.page * Config.pageBytes + w.offset, w.bytes.length)
  | .directory (.write g slot _ _) => (slotWordAddress g slot, 8)
  | .sweepStep page => (page * Config.pageBytes, Config.pageBytes)
  | .directoryClear page => (page * Config.pageBytes, Config.pageBytes)
  | .recordRead _ _ => (0, 0)
  | .directory (.read _ _ _) => (0, 0)

/-! ### The page ownership table (R19) -/

/-- The entry of a page; a page that is not listed is FREE. -/
def tableEntry (t : List (Nat × PageEntry)) (page : Nat) : PageEntry :=
  match t.find? (fun e => e.1 == page) with
  | some e => e.2
  | none => .free

/-- The table with a page's entry changed. -/
def tableSet (t : List (Nat × PageEntry)) (page : Nat) (e : PageEntry) : List (Nat × PageEntry) :=
  t.filter (fun x => x.1 < page) ++ (if e = .free then [] else [(page, e)]) ++ t.filter (fun x => page < x.1)

/-- Every FREE data page, in ascending order (R29, R34). -/
def freePages (t : List (Nat × PageEntry)) : List Nat :=
  (List.range' Config.directoryPages Config.dataPages).filter (fun p => tableEntry t p = .free)

/-- The retired count: the entries in state RETIRED (R28). -/
def Allocator.retiredCount (a : Allocator) : Nat := a.table.countP (fun e => e.2 = .retired)

/-- Available: pool length minus reserved total (R22). -/
def Allocator.available (a : Allocator) : Nat := a.pool.length - a.reservedTotal

/-! ### Regions, records, logical pages (00 Conventions, R69 to R72, R81)

A region without parameters (UNUSED) has no record size; the functions give 0 there, and no rule of the spec asks for it.
notes/assumptions/21.md. -/

/-- Anchor A, 0 without parameters. -/
def Region.anchor (g : Region) : Nat := match g.params with | some p => p.anchor | none => 0
/-- Quota Q, 0 without parameters. -/
def Region.quota (g : Region) : Nat := match g.params with | some p => p.quota | none => 0
/-- Size code c, 0 without parameters. -/
def Region.sizeCode (g : Region) : Nat := match g.params with | some p => p.sizeCode | none => 0
/-- Post count P, 0 without parameters. -/
def Region.postCount (g : Region) : Nat := match g.params with | some p => p.postCount | none => 0
/-- Mark interval M, 0 without parameters. -/
def Region.markInterval (g : Region) : Nat := match g.params with | some p => p.markInterval | none => 0
/-- Pin policy, HOLD_WRITER without parameters. -/
def Region.pinPolicy (g : Region) : PinPolicy := match g.params with | some p => p.pinPolicy | none => .holdWriter
/-- rec_size = 2^c, 0 without parameters. -/
def Region.recSize (g : Region) : Nat := match g.params with | some p => 2 ^ p.sizeCode | none => 0
/-- rpp = 4096 / rec_size, 0 without parameters. -/
def Region.rpp (g : Region) : Nat := Config.pageBytes / g.recSize

/-- Capturing: ARMED or TRIGGERED (R42). -/
def Region.capturing (g : Region) : Bool := g.state = .armed || g.state = .triggered

/-- The seq of the trigger record, if the region was triggered. -/
def Region.triggerSeq (g : Region) : Option Nat := g.trigger.map (·.seq)

/-- The slot of logical page L (R72), with the W that stands. -/
def Region.slotOf (g : Region) (l : Nat) : Nat :=
  match g.wrapLength with
  | none => l
  | some w => if l < g.anchor then l else g.anchor + (l - g.anchor) % w

/-- Byte offset of record k in its page (R69). -/
def Region.offsetOf (g : Region) (k : Nat) : Nat := k % g.rpp * g.recSize

/-- Whether seq k is in the retained set (R81). -/
def Region.retained (g : Region) (k : Nat) : Bool :=
  k < min g.committed (g.anchor * g.rpp) || (g.oldest ≤ k && k < g.committed)

/-- Whether record k lies in the rolling gap: past the anchor area and below the oldest rolling seq (R130). -/
def Region.expired (g : Region) (k : Nat) : Bool := g.anchor * g.rpp ≤ k && k < g.oldest

/-- Whether some seq of [first, last] below committed lies outside the retained set (R124): one that is past the anchor
area and below both the oldest rolling seq and committed. -/
def Region.lostInRange (g : Region) (first last : Nat) : Bool :=
  max first (g.anchor * g.rpp) < min (last + 1) (min g.committed g.oldest)

/-- The end of the retained interval that holds a cursor (R127). -/
def Region.intervalEnd (g : Region) (cursor : Nat) : Nat :=
  if g.oldest = g.anchor * g.rpp then g.committed
  else if cursor < g.anchor * g.rpp then g.anchor * g.rpp else g.committed

/-- The capture fields at their starting values (R40), by the parameters the record holds. -/
def Region.startCapture (g : Region) : Region :=
  { g with
    committed := 0
    trigger := none
    stopCause := none
    rollingCount := 0
    wrapLength := none
    oldest := g.anchor * g.rpp
    faultPage := none }

/-- A count that rises by `n` and saturates at a ceiling (R9, R97). -/
def saturate (ceiling x n : Nat) : Nat := min ceiling (x + n)

/-- A port count as every report shows it (R104). -/
def reported (x : Nat) : Nat := min Config.count32Max x

/-- Whether a STANDING pin of a window covers logical page L of region g (R137). -/
def Window.covers (w : Window) (g : RegionId) (rpp l : Nat) : Bool :=
  w.state != .closed && w.region = g && w.pin = .standing && w.first < (l + 1) * rpp && l * rpp ≤ w.last

end Sys2Proof.Machine
end

