-- ==== Sys2Proof/Machine/EventOps.lean ====
section
/-! DEFINITION. Raising events, making replies, and the outbound arbiter that starts frames (chapters 9 and 10). -/

namespace Sys2Proof.Machine

/-! ### The outbound arbiter (R177, R178) -/

/-- Body of an event frame (R185): the flags byte and the payload; READY's epoch and retired count are those of the frame
start (R160). -/
def eventBody (epoch : Byte) (retiredCount : Nat) (repeated : Bool) : Payload → List Byte
  | .ready cause => [flagBits [repeated], cause.code, epoch] ++ beBytes 2 retiredCount
  | .linkError cause tag => [flagBits [repeated, tag.isSome], cause.code, tag.getD 0]
  | .poolLow available reservedTotal threshold =>
    [flagBits [repeated]] ++ beBytes 2 available ++ beBytes 2 reservedTotal ++ beBytes 2 threshold
  | .triggered seq source => [flagBits [repeated]] ++ beBytes 6 seq ++ [source.code]
  | .stopped cause committed triggerSeq =>
    [flagBits [repeated, triggerSeq.isSome], stopCauseCode cause] ++ beBytes 6 committed ++ beBytes 6 (triggerSeq.getD 0)
  | .mark committed => [flagBits [repeated]] ++ beBytes 6 committed
  | .starved seq windows =>
    [flagBits [repeated]] ++ beBytes 6 seq ++ [flagBits ((List.finRange 4).map (fun w => decide (w ∈ windows)))]
  | .mediaError page kind seq =>
    [flagBits [repeated, seq.isSome]] ++ beBytes 2 page ++ [kind.code] ++ beBytes 6 (seq.getD 0)
  | .pinBroken region firstLost => [flagBits [repeated], numberByte region.val] ++ beBytes 6 firstLost
  | .overrun total => [flagBits [repeated]] ++ beBytes 4 total

/-- CREDIT: 8 minus the outstanding count (R177). -/
def creditByte (outstanding : Nat) : Byte := numberByte (Config.creditMax - outstanding)

/-- The start of a reply frame (R177): the oldest reply leaves the queue, the outstanding count falls by 1, CREDIT is set
from the count after that, and the reply run count rises, held at 4 (R178). -/
def startReply (r : Reply) (rest : List Reply) (s : State) : State :=
  let outstanding := s.link.outstanding - 1
  s.setLink { s.link with
    replies := rest
    outstanding := outstanding
    transmitting := some ⟨.reply, r.tag, creditByte outstanding, r.status.code, r.body⟩
    runCount := min Config.runMax (s.link.runCount + 1) }

/-- The start of an event frame (R160, R177): the head entry leaves the event queue and the run count becomes 0. -/
def startEvent (e : EventEntry) (rest : List EventEntry) (s : State) : State :=
  (s.setEvents { s.events with entries := rest }).setLink { s.link with
    transmitting := some ⟨.event, e.key.kindCode, creditByte s.link.outstanding, e.key.sourceCode,
      eventBody s.link.epoch s.alloc.retiredCount e.repeated e.payload⟩
    runCount := 0 }

/-- The outbound arbiter's decision (R178), made when the transmitter is free, the link ACTIVE and a frame waits. -/
def arbitrate (s : State) : State :=
  if s.link.transmitting.isSome ∨ s.link.state = .quiet then s
  else
    match s.link.replies, s.events.entries with
    | [], [] => s
    | [], e :: es => startEvent e es s
    | r :: rs, [] => startReply r rs s
    | r :: rs, e :: es => if s.link.runCount < Config.runMax then startReply r rs s else startEvent e es s

/-! ### Raising (R158) -/

/-- The pending list after a raise of a key that is not masked (R158, cases 2 and 3). -/
def enqueue (entries : List EventEntry) (key : EventKey) (payload : Payload) : List EventEntry :=
  if entries.any (fun e => e.key = key) then
    entries.map (fun e => if e.key = key then ⟨key, payload, true⟩ else e)
  else entries ++ [⟨key, payload, false⟩]

/-- Whether the event mask of the key's region names its kind (R158, case 1). -/
def masked (s : State) (key : EventKey) : Bool :=
  match key.maskBit with
  | some (r, i) => (s.region r).eventMask.getLsbD i
  | none => false

/-- A raise, and the arbiter's decision it may make due (R158, R178). DESIGN CHOICE: the decision is made at each raise, so
of an event and a reply made in one step the one made first is taken first; notes/assumptions/11.md. -/
def raiseEvent (key : EventKey) (payload : Payload) (s : State) : State :=
  if masked s key then s
  else arbitrate (s.setEvents { s.events with entries := enqueue s.events.entries key payload })

/-- A reply made (R176): appended at the tail, or discarded when its request is stale (R175). -/
def makeReply (tag : Byte) (stale : Bool) (status : Status) (body : List Byte) (s : State) : State :=
  if stale then s
  else arbitrate (s.setLink { s.link with replies := s.link.replies ++ [⟨tag, status, body⟩] })

/-- Whether a READY entry is pending (R163). -/
def readyPending (s : State) : Bool := s.events.entries.any (fun e => e.key = .ready)

/-! ### The pool notice (R36) -/

/-- Evaluation of the pool notice, held outside RUN (R36, R38). -/
def evaluateNotice (s : State) : State :=
  if s.device ≠ .run then s
  else if s.alloc.armed then
    if s.alloc.available < s.alloc.threshold then
      raiseEvent .poolLow (.poolLow s.alloc.available s.alloc.reservedTotal s.alloc.threshold)
        (s.setAlloc { s.alloc with armed := false })
    else s
  else if s.alloc.threshold ≤ s.alloc.available then s.setAlloc { s.alloc with armed := true }
  else s

end Sys2Proof.Machine
end

