-- ==== Sys2Proof/Machine/AllocatorOps.lean ====
section
/-! DEFINITION. The page allocator's operations: reservations, claims, suspect marks, retirement, pages leaving a region, the
building of the pool (chapter 2). -/

namespace Sys2Proof.Machine

def State.setReservation (s : State) (r : RegionId) (n : Nat) : State :=
  s.setAlloc { s.alloc with reservations := s.alloc.reservations.set r.val n r.isLt }

def State.setOwned (s : State) (r : RegionId) (n : Nat) : State :=
  s.setAlloc { s.alloc with ownedPages := s.alloc.ownedPages.set r.val n r.isLt }

/-- The reservation test of ARM (R23): with Available at least `n` the region's outstanding reservation is set to `n`; with
less, nothing changes and the shortfall is reported. -/
def reserve (r : RegionId) (n : Nat) (s : State) : Option State :=
  if n ≤ s.alloc.available then
    let t := s.setReservation r n
    some (evaluateNotice (t.setAlloc { t.alloc with reservedTotal := t.alloc.reservedTotal + n }))
  else none

/-- The head of the pool handed to region `r` (R24): its entry becomes OWNED with suspect clear, and the owned count rises. -/
def takePage (r : RegionId) (page : Nat) (rest : List Nat) (s : State) : State :=
  let t := s.setAlloc { s.alloc with pool := rest, table := tableSet s.alloc.table page (.owned r false) }
  t.setOwned r (t.owned r + 1)

/-- A claim of one page for region `r` (R24): the page with the state after the claim, or the refusal. -/
def claimPage (r : RegionId) (s : State) : Option (Nat × State) :=
  match s.alloc.pool with
  | [] => none
  | page :: rest =>
    if 0 < s.reservation r then
      let t := takePage r page rest s
      let u := t.setReservation r (s.reservation r - 1)
      some (page, evaluateNotice (u.setAlloc { u.alloc with reservedTotal := u.alloc.reservedTotal - 1 }))
    else if 1 ≤ s.alloc.available then some (page, evaluateNotice (takePage r page rest s))
    else none

/-- The return of a region's reservation (R26); with none held, nothing changes. -/
def returnReservation (r : RegionId) (s : State) : State :=
  if s.reservation r = 0 then s
  else
    let t := s.setReservation r 0
    evaluateNotice (t.setAlloc { t.alloc with reservedTotal := t.alloc.reservedTotal - s.reservation r })

/-- A page marked suspect (R27): its flag is set while it is OWNED, and the mark has no effect otherwise. -/
def markSuspect (page : Nat) (s : State) : State :=
  match tableEntry s.alloc.table page with
  | .owned r _ => s.setAlloc { s.alloc with table := tableSet s.alloc.table page (.owned r true) }
  | _ => s

/-- The retirement of a page (R28): state RETIRED, and an entry of the list while the list holds fewer than 512. -/
def retirePage (page : Nat) (origin : RetireOrigin) (region : Option RegionId) (s : State) : State :=
  let table := tableSet s.alloc.table page .retired
  if s.alloc.retiredList.length < Config.retiredListMax then
    s.setAlloc { s.alloc with table := table, retiredList := s.alloc.retiredList ++ [⟨page, origin, region⟩] }
  else s.setAlloc { s.alloc with table := table, retiredIncomplete := true }

/-- An OWNED page made FREE and appended at the pool tail, its owner's count lowered (R31, R34). -/
def returnPage (r : RegionId) (page : Nat) (s : State) : State :=
  let t := s.setAlloc { s.alloc with pool := s.alloc.pool ++ [page], table := tableSet s.alloc.table page .free }
  t.setOwned r (t.owned r - 1)

/-- A suspect page leaving its region (R31, R34, R151). -/
def retireOwned (r : RegionId) (page : Nat) (origin : RetireOrigin) (s : State) : State :=
  let t := retirePage page origin (some r) s
  t.setOwned r (t.owned r - 1)

/-- The pool built of every FREE page in ascending order, with reserved total 0 (R29). -/
def buildPool (s : State) : State :=
  s.setAlloc { s.alloc with pool := freePages s.alloc.table, reservedTotal := 0 }

/-- The end of the restart walk at the allocator (R34): the pool rebuilt, every reservation, owned-page count and the
reserved total 0, the scanner IDLE. -/
def finishRestartWalk (s : State) : State :=
  s.setAlloc { s.alloc with
    pool := freePages s.alloc.table
    reservedTotal := 0
    reservations := Vector.replicate 16 0
    ownedPages := Vector.replicate 16 0
    scanner := .idle }

end Sys2Proof.Machine
end

