-- ==== Sys2Proof/Machine/CacheOps.lean ====
section
/-! DEFINITION. The slot cache's operations (chapter 5). -/

namespace Sys2Proof.Machine

/-- The entry number that holds the pair (region, slot) (R87). -/
def Cache.find (c : Cache) (r : RegionId) (slot : Nat) : Option (Fin 24) :=
  (List.finRange 24).find? (fun i =>
    match c.entries.get i with
    | some e => e.region = r && e.slot = slot
    | none => false)

/-- The page of the entry that holds the pair. -/
def Cache.pageOf (c : Cache) (r : RegionId) (slot : Nat) : Option Nat :=
  match c.find r slot with
  | some i => (c.entries.get i).map (·.page)
  | none => none

/-- The lowest-numbered invalid entry (R90). -/
def Cache.firstInvalid (c : Cache) : Option (Fin 24) :=
  (List.finRange 24).find? (fun i => (c.entries.get i).isNone)

/-- The victim pointer stepped by one (R86). -/
def stepVictim (v : Fin 24) : Fin 24 := v + 1

/-- An install (R90): in the lowest-numbered invalid entry, or in place of the entry the victim pointer names. -/
def Cache.install (c : Cache) (e : CacheEntry) : Cache :=
  match c.firstInvalid with
  | some i => { c with entries := c.entries.set i.val (some e) i.isLt }
  | none => { c with entries := c.entries.set c.victim.val (some e) c.victim.isLt, victim := stepVictim c.victim }

/-- The cache after a lookup that hits entry `i` (R87). -/
def Cache.hit (c : Cache) (i : Fin 24) : Cache :=
  { c with
    hits := saturate Config.count32Max c.hits 1
    victim := if i = c.victim then stepVictim c.victim else c.victim }

/-- The cache after a lookup that misses (R88). -/
def Cache.miss (c : Cache) : Cache := { c with misses := saturate Config.count32Max c.misses 1 }

/-- A purge of one region (R95). -/
def Cache.purgeRegion (c : Cache) (r : RegionId) : Cache :=
  { c with entries := c.entries.map (fun e => if (e.map (·.region)) = some r then none else e) }

/-- How many valid entries name a region (R65, R97). -/
def Cache.countRegion (c : Cache) (r : RegionId) : Nat :=
  c.entries.toList.countP (fun e => (e.map (·.region)) = some r)

/-- A lookup (R87, R88): the page on a hit; on a miss the directory read is queued in the requester's place. -/
def lookupSlot (r : RegionId) (slot : Nat) (who : Requester) (s : State) : Option Nat × State :=
  match s.cache.find r slot with
  | some i => ((s.cache.entries.get i).map (·.page), s.setCache (s.cache.hit i))
  | none =>
    (none, (s.setCache s.cache.miss).setStore
      { s.store with directoryOps := s.store.directoryOps ++ [.read r slot who] })

/-- A write-update (R92). -/
def writeUpdate (r : RegionId) (slot page : Nat) (s : State) : State :=
  if (s.region r).state = .faulted then s
  else
    match s.cache.find r slot with
    | some i => s.setCache { s.cache with entries := s.cache.entries.set i.val (some ⟨r, slot, page⟩) i.isLt }
    | none => s.setCache (s.cache.install ⟨r, slot, page⟩)

/-- A fill that completes with a page number (R89): the page answered to the requester, and the cache after it. -/
def fillPageNumber (r : RegionId) (slot page : Nat) (s : State) : Nat × State :=
  if (s.region r).capturing ∨ (s.region r).state = .stopped then
    match s.cache.pageOf r slot with
    | some held => (held, s)
    | none => (page, s.setCache (s.cache.install ⟨r, slot, page⟩))
  else (page, s)

end Sys2Proof.Machine
end

