-- ==== Sys2Proof/Machine/StoreOps.lean ====
section
/-! DEFINITION. The store controller's operations: the arbiter's grant, the effect of each operation on the stored words, the
correctable-error count, idleness (chapter 1). -/

namespace Sys2Proof.Machine

/-- The first of pointer + 1, pointer + 2, pointer + 3, pointer + 4 (mod 4) that waits (R13). -/
def roundRobin (pointer : Fin 4) (waits : Fin 4 → Bool) : Option (Fin 4) :=
  [pointer + 1, pointer + 2, pointer + 3, pointer].find? waits

/-- Whether a record read waits at the arbiter. -/
def Store.readWaits (st : Store) : Bool := (List.finRange 4).any (fun w => (st.reads.get w).isSome)

/-- The fetch-wait count after a grant to class 1 or class 2 (R14). -/
def Store.waitCount (st : Store) : Nat := if st.readWaits then st.fetchWait + 1 else st.fetchWait

/-- A grant to class 1: the head of the directory operation queue. -/
def Store.grantDirectory (st : Store) (op : DirectoryOp) (rest : List DirectoryOp) : Store :=
  { st with port := some (.directory op), directoryOps := rest, fetchWait := st.waitCount }

/-- A grant to class 2: the record write of a port chosen round-robin (R13); unchanged if none waits. -/
def Store.grantWrite (st : Store) : Store :=
  match roundRobin st.portPointer (fun p => (st.writes.get p).isSome) with
  | none => st
  | some p =>
    match st.writes.get p with
    | none => st
    | some w => { st with
        port := some (.recordWrite p w), writes := st.writes.set p.val none p.isLt,
        portPointer := p, fetchWait := st.waitCount }

/-- A grant to class 3: the record read of a window chosen round-robin (R13); the fetch-wait count becomes 0 (R14). -/
def Store.grantRead (st : Store) : Store :=
  match roundRobin st.windowPointer (fun w => (st.reads.get w).isSome) with
  | none => st
  | some w =>
    match st.reads.get w with
    | none => st
    | some r => { st with
        port := some (.recordRead w r), reads := st.reads.set w.val none w.isLt,
        windowPointer := w, fetchWait := 0 }

/-- Whether a record write waits at the arbiter. -/
def Store.writeWaits (st : Store) : Bool := (List.finRange 4).any (fun p => (st.writes.get p).isSome)

/-- The arbiter's grant decision (R12, R14), made when the port is free and the store is serving. -/
def Store.grant (st : Store) : Store :=
  if st.port.isSome ∨ st.condition = .initializing then st
  else if Config.fetchGuard ≤ st.fetchWait ∧ st.readWaits then st.grantRead
  else
    match st.directoryOps with
    | op :: rest => st.grantDirectory op rest
    | [] => if st.writeWaits then st.grantWrite else st.grantRead

/-- The grant decision at the end of a step. -/
def storeGrant (s : State) : State := s.setStore s.store.grant

/-- The port becomes free. -/
def freePort (s : State) : State := s.setStore { s.store with port := none }

/-- What word `first + i` reads as, its cells being in condition `cells i`: no better than the error that stands in it (R2). -/
def Store.wordOutcome (st : Store) (first : Nat) (cells : Nat → WordOutcome) (i : Nat) : WordOutcome :=
  worseOutcome (wordError st.errors (first + i)) (cells i)

/-- The read of one word: the outcome with the error that stands in it, and the data its cells gave. -/
def Store.wordRead (st : Store) (n : Nat) (w : WordRead) : WordRead :=
  { w with outcome := worseOutcome (wordError st.errors n) w.outcome }

/-- `count` words from `first` on read: a corrected word keeps its error until it is written (R2, R144), and the corrected ones
are added to the correctable-error count (R9). -/
def readWords (first count : Nat) (cells : Nat → WordOutcome) (s : State) : State :=
  let outcome := s.store.wordOutcome first cells
  s.setStore { s.store with
    errors := setWordErrors s.store.errors first count (fun i => errorAfterRead (wordError s.store.errors (first + i)) (outcome i))
    correctable := saturate Config.correctableMax s.store.correctable (correctedWords outcome count) }

/-- A failed directory write leaves its word unreadable until it is written again (R148). -/
def leaveUnreadable (n : Nat) (s : State) : State :=
  s.setStore { s.store with errors := setWordErrors s.store.errors n 1 (fun _ => .uncorrectable) }

/-- Whole words stored in the DRAM from an address on, with fresh check bits (R2). -/
def storeBytes (a : Nat) (bytes : List Byte) (s : State) : State :=
  s.setStore { s.store with
    memory := Memory.write s.store.memory a bytes
    errors := freshWords s.store.errors (a / 8) (bytes.length / 8) }

/-- The data a word's read delivers, absent when it is uncorrectable (R2). -/
def deliveredWord (m : List Host.Cell) (a : Nat) (w : WordRead) : Option Word :=
  if w.outcome = .uncorrectable then none
  else match w.escaped with
    | some data => some data
    | none => some (Memory.readWord m a)

/-- The page number a directory read reports, absent when it reports uncorrectable (R7). -/
def directoryReadPage (m : List Host.Cell) (g : RegionId) (slot : Nat) (w : WordRead) : Option Nat :=
  match deliveredWord m (slotWordAddress g slot) w with
  | none => none
  | some data =>
    let v := slotOfWord data slot
    if 16 ≤ v ∧ v ≤ 16383 then some v else none

/-- Whether word `i` of page `p`, just written, fails the sweep (R16). -/
def sweepWordFails (p : Nat) (words : List (Nat × WordRead)) (i : Nat) : Bool :=
  let w := wordReadAt words i
  w.outcome = .uncorrectable ||
    match w.escaped with
    | none => false
    | some data => data ≠ Config.sweepPattern p i

/-- Whether the store controller is idle (R18): the port free, the directory queue empty, no record operation waiting. -/
def Store.idle (st : Store) : Bool :=
  st.port.isNone && st.directoryOps.isEmpty && !st.writeWaits && !st.readWaits

/-- A record write issued for a port (R111). -/
def issueWrite (p : PortId) (w : RecordWrite) (s : State) : State :=
  s.setStore { s.store with writes := s.store.writes.set p.val (some w) p.isLt }

/-- A record read issued for a window (R128). -/
def issueRead (w : WindowId) (r : RecordRead) (s : State) : State :=
  s.setStore { s.store with reads := s.store.reads.set w.val (some r) w.isLt }

/-- A directory operation issued: it joins the tail of the queue (R10). -/
def issueDirectory (op : DirectoryOp) (s : State) : State :=
  s.setStore { s.store with directoryOps := s.store.directoryOps ++ [op] }

end Sys2Proof.Machine
end

