-- ==== Sys2Proof/Machine/WriterOps.lean ====
section
/-! DEFINITION. The writers' operations: record writes, page claims, recycles with their pin check, the stop notice
(chapters 4, 6 and 7). -/

namespace Sys2Proof.Machine

/-- The port's writer changed to a condition. -/
def Port.withWriter (p : Port) (c : WriterCondition) : Port := { p with writer := c }

/-! ### Record writes (R111) -/

/-- A marker report taken by the region controller (R50). -/
def markerReport (r : RegionId) (k : Nat) (s : State) : State :=
  if (s.region r).state = .armed then
    raiseEvent (.triggered r) (.triggered k .marker)
      (s.setRegion r { s.region r with state := .triggered, trigger := some ⟨k, .marker⟩ })
  else s

/-- The issue of the record write of the head record into a page (R111), at the seq committed and its offset. -/
def issueRecordWrite (p : PortId) (r : RegionId) (page : Nat) (s : State) : State :=
  match (s.port p).staging with
  | [] => s
  | record :: rest =>
    let k := (s.region r).committed
    let t := s.setPort p { s.port p with staging := rest, inFlight := some k }
    let u := issueWrite p ⟨r, page, (s.region r).offsetOf k, record.bytes⟩ t
    if record.marker && (s.port p).markerEnable then markerReport r k u else u

/-! ### The pin check (R138) -/

/-- The answer of a pin check (R78); hold names the covering windows in ascending order. -/
inductive PinAnswer
  | proceed | hold (windows : List WindowId) | stopped
  deriving DecidableEq, Repr

/-- The windows whose STANDING pin covers logical page L of region r, in ascending order (R137). -/
def coveringWindows (r : RegionId) (l : Nat) (s : State) : List WindowId :=
  (List.finRange 4).filter (fun w => (s.window w).covers r (s.region r).rpp l)

/-- One covering pin broken (R139): BROKEN, and PIN_BROKEN raised with the first lost seq. -/
def breakPin (r : RegionId) (l : Nat) (s : State) (w : WindowId) : State :=
  raiseEvent (.pinBroken w) (.pinBroken r (max (s.window w).first (l * (s.region r).rpp)))
    (s.setWindow w { s.window w with pin := .broken })

/-- The advance of the oldest rolling seq at a recycle of logical page L (R79, R138). -/
def advanceOldest (r : RegionId) (l : Nat) (s : State) : State :=
  s.setRegion r { s.region r with oldest := (l + 1) * (s.region r).rpp }

/-- The pin check of region r and logical page L, with what is made in the same step (R138): the covering pins broken under
BREAK_PIN, and the advance of the oldest rolling seq where the answer is proceed. DESIGN CHOICE, unsafe: PIN_BROKEN is raised in
ascending window order, where R139 gives none; notes/assumptions/27.md. -/
def pinCheck (r : RegionId) (l : Nat) (s : State) : PinAnswer × State :=
  if (s.region r).capturing then
    match coveringWindows r l s with
    | [] => (.proceed, advanceOldest r l s)
    | w :: ws =>
      if (s.region r).pinPolicy = .holdWriter then (.hold (w :: ws), s)
      else (.proceed, advanceOldest r l ((w :: ws).foldl (breakPin r l) s))
  else (.stopped, s)

/-! ### Page claims (R73 to R79, R113) -/

/-- The claim of a logical page ended with a page: the fill page is set, the claim ends and the record write is issued
(R79, R113). -/
def claimEnds (p : PortId) (r : RegionId) (l page : Nat) (s : State) : State :=
  issueRecordWrite p r page
    (s.setPort p { s.port p with writer := .running, fillPage := some ⟨page, l⟩, claim := none })

/-- The writer enters or stays in STARVED (R114, R115). -/
def enterStarved (p : PortId) (r : RegionId) (l : Nat) (rc : Recycle) (page : Nat) (windows : List WindowId)
    (s : State) : State :=
  raiseEvent (.starved r) (.starved (l * (s.region r).rpp) windows)
    (s.setPort p { s.port p with writer := .starved, claim := some ⟨l, .pinHold, some rc, some page⟩ })

/-- The pin check of a recycle with its page found, and what the writer does with the answer (R113 to R115). -/
def recycleStep (p : PortId) (r : RegionId) (l : Nat) (rc : Recycle) (page : Nat) (s : State) : State :=
  let check := pinCheck r rc.oldPage s
  match check.1 with
  | .proceed => claimEnds p r l page check.2
  | .hold windows => enterStarved p r l rc page windows check.2
  | .stopped => check.2

/-- The lookup of a recycle (R77): a hit goes straight to the pin check, a miss waits at stage DIRECTORY_READ. -/
def recycleLookup (p : PortId) (r : RegionId) (l : Nat) (s : State) : State :=
  let g := s.region r
  let w := g.wrapLength.getD g.rollingCount
  let rc : Recycle := ⟨l - w, g.anchor + (l - g.anchor) % w⟩
  let found := lookupSlot r rc.slot (.writer p) s
  match found.1 with
  | some page => recycleStep p r l rc page found.2
  | none => found.2.setPort p { found.2.port p with claim := some ⟨l, .directoryRead, some rc, none⟩ }

/-- A wrap (R76), if none has happened: W takes the value n. The claim goes on as a recycle (R77). -/
def wrapThenRecycle (p : PortId) (r : RegionId) (l : Nat) (s : State) : State :=
  let g := s.region r
  recycleLookup p r l (s.setRegion r { g with wrapLength := some (g.wrapLength.getD g.rollingCount) })

/-- The rolling count after a fresh-page claim for logical page `l`: one more where `l` is past the anchor (R74 step 2). -/
def countRolling (r : RegionId) (l : Nat) (s : State) : State :=
  let g := s.region r
  if g.anchor ≤ l then s.setRegion r { g with rollingCount := g.rollingCount + 1 } else s

/-- A fresh-page claim, with the page the allocator has handed out (R74 steps 2 to 5). -/
def freshPage (p : PortId) (r : RegionId) (l page : Nat) (s : State) : State :=
  let u := writeUpdate r l page (issueDirectory (.write r l page p) (countRolling r l s))
  u.setPort p { u.port p with claim := some ⟨l, .directoryWrite, none, some page⟩ }

/-- The page-claim decision (R73). -/
def pageClaim (p : PortId) (r : RegionId) (l : Nat) (s : State) : State :=
  let g := s.region r
  if l < g.anchor ∨ (g.wrapLength = none ∧ g.rollingCount < g.quota - g.anchor) then
    match claimPage r s with
    | some (page, t) => freshPage p r l page t
    | none => wrapThenRecycle p r l s
  else wrapThenRecycle p r l s

/-- A RUNNING writer takes the head record (R110), when the queue is not empty, no record write is in flight and no claim is
in progress. -/
def takeHead (p : PortId) (s : State) : State :=
  let q := s.port p
  match q.binding with
  | none => s
  | some r =>
    if q.writer = .running ∧ q.staging ≠ [] ∧ q.inFlight = none ∧ q.claim = none then
      let g := s.region r
      if g.committed % g.rpp = 0 then pageClaim p r (g.committed / g.rpp) s
      else
        match q.fillPage with
        | some f => issueRecordWrite p r f.page s
        | none => s
    else s

/-! ### Notices -/

/-- The capturing notice of ARM (R109, R110). -/
def capturingNotice (p : PortId) (s : State) : State :=
  takeHead p (s.setPort p { s.port p with writer := .running, fillPage := none, claim := none })

/-- The claim after a stop notice (R116 step 4): outstanding while its directory operation is issued, abandoned otherwise. -/
def claimAfterStop (c : Option Claim) : Option Claim :=
  match c with
  | some c => if c.stage = .pinHold then none else some c
  | none => none

/-- A port after a stop notice (R116). -/
def Port.stopped (q : Port) : Port :=
  { q with
    writer := .idle
    staging := []
    counts := { q.counts with dropFlush := q.counts.dropFlush + q.staging.length }
    fillPage := none
    claim := claimAfterStop q.claim }

/-- The stop notice to a port's writer (R116). -/
def stopNotice (p : PortId) (s : State) : State := s.setPort p (s.port p).stopped

/-- The stop notice to the writer of a region's bound port, if it has one. -/
def stopRegionWriter (r : RegionId) (s : State) : State :=
  match (s.region r).boundPort with
  | some p => stopNotice p s
  | none => s

/-- A pin-end notice for a region (R115, R140): a STARVED writer asks the pin check of the same L_old again. -/
def pinEndNotice (r : RegionId) (s : State) : State :=
  match (s.region r).boundPort with
  | none => s
  | some p =>
    match (s.port p).writer, (s.port p).claim with
    | .starved, some ⟨l, .pinHold, some rc, some page⟩ => recycleStep p r l rc page s
    | _, _ => s

end Sys2Proof.Machine
end

