-- ==== Sys2Proof/Machine/RegionOps.lean ====
section
/-! DEFINITION. The region controller's operations that other blocks' reports bring about: completions, stops and faults
(chapters 3 and 8). -/

namespace Sys2Proof.Machine

/-- STOPPED raised for a region, with its cause, committed count and trigger seq as they stand (R52, R57, R62). -/
def raiseStopped (r : RegionId) (s : State) : State :=
  raiseEvent (.stopped r) (.stopped (s.region r).stopCause (s.region r).committed (s.region r).triggerSeq) s

/-- A capturing region stops (R52 steps 1 to 4, R55, R56): STOPPED with the cause, the reservation returned, the stop notice,
and STOPPED raised. -/
def stopRegion (r : RegionId) (cause : StopCause) (s : State) : State :=
  let t := s.setRegion r { s.region r with state := .stopped, stopCause := some cause }
  raiseStopped r (stopRegionWriter r (returnReservation r t))

/-- The mark check of a completion (R54 step 1). -/
def markCheck (r : RegionId) (s : State) : State :=
  let g := s.region r
  if g.markInterval ≠ 0 ∧ g.committed % g.markInterval = 0 then raiseEvent (.mark r) (.mark g.committed) s else s

/-- The post-count check, then the limit check, of a completion (R54 steps 2 and 3). -/
def stopChecks (r : RegionId) (s : State) : State :=
  let g := s.region r
  if g.state = .triggered ∧ g.triggerSeq.map (· + g.postCount) = some g.committed then
    stopRegion r .postCount s
  else if g.committed = Config.maxSeq then stopRegion r .limit s
  else s

/-- A completion report for a region (R54, R57). -/
def completionReport (r : RegionId) (s : State) : State :=
  let g := s.region r
  let t := s.setRegion r { g with committed := g.committed + 1 }
  if g.capturing then stopChecks r (markCheck r t)
  else if g.state = .stopped ∨ g.state = .faulted then raiseStopped r t
  else s

/-- The fault notice to the fetch engine (R62 step 6, R132): end cause FAULT for every fetch in flight on the region that has
none. -/
def Window.faultNotice (r : RegionId) (w : Window) : Window :=
  match w.fetch with
  | some f => if w.region = r ∧ f.endCause = none then { w with fetch := some { f with endCause := some .fault } } else w
  | none => w

/-- MEDIA_ERROR raised for a region's directory page (R147). -/
def raiseDirectoryError (r : RegionId) (s : State) : State :=
  raiseEvent (.mediaError r) (.mediaError r.val .directory none) s

/-- An uncorrectable directory outcome for a region (R62, R64, R148). -/
def faultReport (r : RegionId) (s : State) : State :=
  let g := s.region r
  if g.capturing ∨ g.state = .stopped then
    let t := s.setRegion r { g with
      state := .faulted, stopCause := some .fault, faultPage := some r.val, suspect := true }
    let u := returnReservation r t
    let v := stopRegionWriter r (u.setCache (u.cache.purgeRegion r))
    let w := v.setWindows (v.windows.map (Window.faultNotice r))
    raiseStopped r (raiseDirectoryError r w)
  else if g.state = .faulted then raiseDirectoryError r s
  else s

end Sys2Proof.Machine
end

