-- ==== Sys2Proof/Machine/FetchOps.lean ====
section
/-! DEFINITION. The fetch engine's operations: reading the records of a fetch, its end, the closing of windows (chapter 7). -/

namespace Sys2Proof.Machine

/-- The size code field of a FETCH reply (R186): c of the window's region while the window is OPEN or CLOSING. -/
def fetchSizeCode (w : WindowId) (s : State) : Nat :=
  if (s.window w).state = .closed then 0 else (s.region (s.window w).region).sizeCode

/-- Body of a FETCH reply (11.5, R186). -/
def fetchBody (window : Byte) (sizeCode firstSeq newCursor : Nat) (records : List (List Byte)) : List Byte :=
  [window, numberByte sizeCode] ++ beBytes 2 records.length ++ beBytes 6 firstSeq ++ beBytes 6 newCursor ++ records.flatten

/-- Body of a CLOSE reply (11.5). -/
def closeBody (window : Byte) (cursor : Nat) (pin : Pin) : List Byte := [window] ++ beBytes 6 cursor ++ [pin.code]

/-- A window becomes CLOSED with pin NONE, and the pin-end notice is sent if the pin was STANDING (R134, R135, R140). -/
def becomeClosed (w : WindowId) (s : State) : State :=
  let x := s.window w
  let t := s.setWindow w { x with state := .closed, pin := .none, closeTag := none }
  if x.pin = .standing then pinEndNotice x.region t else t

/-- The closing of a window whose fetch has ended, with the reply to a waiting CLOSE (R135 steps 3 and 4, R142). DEDUCED, unsafe:
the reply carries the final cursor and the pin before the close, as R134 and 11.5 have them; notes/assumptions/16.md. -/
def closeAfterFetch (w : WindowId) (s : State) : State :=
  let x := s.window w
  let t := becomeClosed w s
  match x.closeTag with
  | some c => makeReply c.tag c.stale .ok (closeBody (numberByte w.val) x.cursor x.pin) t
  | none => t

/-- The end of a fetch (R131): the FETCH reply is made, the cursor advances by the records delivered, the fetch record is
removed; a CLOSING window, and any window during RESTART, is then closed. -/
def fetchEnd (w : WindowId) (f : Fetch) (status : Status) (records : List (List Byte)) (s : State) : State :=
  let x := s.window w
  let body := fetchBody (numberByte w.val) (fetchSizeCode w s) f.firstSeq (f.firstSeq + records.length) records
  let t := (makeReply f.tag f.stale status body s).setWindow w
    { x with cursor := x.cursor + records.length, fetch := none }
  if x.state = .closing ∨ s.device = .restarting then closeAfterFetch w t else t

/-- The end of a fetch by its end cause (R131, R132). -/
def fetchEndByCause (w : WindowId) (f : Fetch) (cause : EndCause) (s : State) : State :=
  match cause with
  | .fault => fetchEnd w f .faulted f.gathered s
  | .close => fetchEnd w f .closed [] s
  | .restart => fetchEnd w f .aborted [] s

/-- The record read of the fetch's current seq (R128 step 3). -/
def fetchRead (w : WindowId) (f : Fetch) (page : Nat) (s : State) : State :=
  let g := s.region (s.window w).region
  issueRead w ⟨page, g.offsetOf f.current, g.recSize⟩
    (s.setWindow w { s.window w with fetch := some { f with stage := .read } })

/-- The fetch's next record (R128 steps 1 and 2): the translation of its current seq through the slot cache. DEDUCED,
unsafe: FETCH has tested its seqs against the retained set (R126, R127), and one that a recycle takes from the set afterwards is
translated and left to the check after its read (R128, R130, R133); notes/assumptions/26.md. -/
def fetchNext (w : WindowId) (f : Fetch) (s : State) : State :=
  let r := (s.window w).region
  let g := s.region r
  let found := lookupSlot r (g.slotOf (f.current / g.rpp)) (.window w) s
  match found.1 with
  | some page => fetchRead w f page found.2
  | none => found.2.setWindow w { found.2.window w with fetch := some { f with stage := .lookup } }

/-- The slot cache's answer to a fetch's lookup: a page, or uncorrectable (R128, R132). -/
def fetchAnswer (w : WindowId) (page : Option Nat) (s : State) : State :=
  match (s.window w).fetch with
  | none => s
  | some f =>
    match f.endCause, page with
    | some cause, _ => fetchEndByCause w f cause s
    | none, some page => fetchRead w f page s
    | none, none => fetchEndByCause w f .fault s

/-- A record read completed clean or corrected, with the fetch going on: the expiry post-check (R130), and what follows it:
the end at N records, or the next seq. -/
def fetchRecord (w : WindowId) (f : Fetch) (bytes : List Byte) (s : State) : State :=
  let g := s.region (s.window w).region
  if g.expired f.current then fetchEnd w f .expired f.gathered s
  else
    let gathered := f.gathered ++ [bytes]
    if f.total ≤ gathered.length then fetchEnd w f .ok gathered s
    else fetchNext w { f with gathered := gathered, current := f.current + 1 } s

/-- The window taken by RESTART (R142): closed at once with no fetch in flight, else its fetch marked to end. -/
def restartWindow (s : State) (w : WindowId) : State :=
  let x := s.window w
  match x.fetch with
  | some f =>
    s.setWindow w { x with fetch := some { f with endCause := some (f.endCause.getD .restart) } }
  | none => if x.state = .opened then becomeClosed w s else s

end Sys2Proof.Machine
end

