-- ==== Sys2Proof/Machine/LinkOps.lean ====
section
/-! DEFINITION. The host link's operations: the receiver, acceptance of frames, and the request engine's taking and dispatch of
requests (chapter 10, 11.4). -/

namespace Sys2Proof.Machine

/-! ### The receiver (R168 to R172, R174) -/

/-- The receiver's phase (R168). -/
inductive Phase
  | hunt | length | content | check
  deriving DecidableEq, Repr

/-- LENGTH of the partial frame, once both its bytes are kept. -/
def frameLength (kept : List Byte) : Nat := field kept 1 2

/-- The phase, from the bytes kept since the SYNC, the SYNC first (R168). -/
def phaseOf (kept : List Byte) : Phase :=
  if kept.length = 0 then .hunt
  else if kept.length < 3 then .length
  else if kept.length < 3 + frameLength kept then .content
  else .check

/-- Whether the inter-byte timer runs (R170). -/
def interByteTimerRunning (l : Link) : Bool := phaseOf l.kept ≠ .hunt

def State.setKept (s : State) (kept : List Byte) : State := s.setLink { s.link with kept := kept }

/-- LINK_ERROR raised (R171, R174). -/
def raiseLinkError (cause : LinkErrorCause) (tag : Option Byte) (s : State) : State :=
  raiseEvent .linkError (.linkError cause tag) s

/-- The byte in the TAG position of a partial frame, where it was taken (R171). -/
def keptTag (kept : List Byte) : Option Byte := kept[4]?

/-- Whether a kept frame's CHECK is the check of its LENGTH, header and body bytes (R169). -/
def frameValid (kept : List Byte) : Bool :=
  let checked := (kept.drop 1).take (2 + frameLength kept)
  field kept (3 + frameLength kept) 2 = (frameCheck checked).toNat

/-- The request that a complete kept frame carries (R181). -/
def frameRequest (kept : List Byte) : Request :=
  ⟨kept.getD 3 0, kept.getD 4 0, (kept.drop 5).take (frameLength kept - 2)⟩

/-- The link made ACTIVE by a valid frame received while QUIET (R172): READY is raised with the ready cause in RUN with none
pending (R163), and the arbiter decides (R178). -/
def activateLink (s : State) : State :=
  if s.link.state = .quiet then
    let t := s.setLink { s.link with state := .active }
    if s.device = .run ∧ readyPending s = false then raiseEvent .ready (.ready s.events.readyCause) t
    else arbitrate t
  else s

/-- A valid frame offered for acceptance (R174). -/
def acceptFrame (q : Request) (s : State) : State :=
  if s.link.outstanding < Config.creditMax then
    s.setLink { s.link with requests := s.link.requests ++ [q], outstanding := s.link.outstanding + 1 }
  else raiseLinkError .credit (some q.tag) s

/-- What becomes of the partial frame when a byte is taken (R168, R169). -/
inductive ByteResult
  | kept (bytes : List Byte)        -- the partial frame, with or without the byte
  | badLength (bytes : List Byte)   -- LENGTH outside 2..64
  | complete (bytes : List Byte)    -- the second CHECK byte
  deriving DecidableEq, Repr

/-- One byte taken, by phase (R168). -/
def takeByte (kept : List Byte) (b : Byte) : ByteResult :=
  let now := kept ++ [b]
  match phaseOf kept with
  | .hunt => if b = Config.sync then .kept now else .kept []
  | .length =>
    if kept.length = 1 then .kept now
    else if 2 ≤ frameLength now ∧ frameLength now ≤ 64 then .kept now else .badLength now
  | .content => .kept now
  | .check => if kept.length = 3 + frameLength kept then .kept now else .complete now

/-- Bytes taken in order. After a discard the kept bytes that follow the discarded SYNC are taken again before the bytes still
to come (R168, R169). Each discard drops a byte for good, so `steps` never runs out where `receiverSteps` gives it.
DEDUCED: kept bytes that follow a valid frame found among kept bytes are still scanned; notes/assumptions/12.md. DESIGN CHOICE,
unsafe: the LINK_ERROR of a discard is raised before the READY of a valid frame found behind it; notes/assumptions/29.md. -/
def receiveBytes : Nat → List Byte → State → State
  | 0, _, s => s
  | _ + 1, [], s => s
  | steps + 1, b :: rest, s =>
    match takeByte s.link.kept b with
    | .kept kept => receiveBytes steps rest (s.setKept kept)
    | .badLength kept => receiveBytes steps (kept.drop 1 ++ rest) (raiseLinkError .badLength none (s.setKept []))
    | .complete kept =>
      if frameValid kept then
        receiveBytes steps rest (acceptFrame (frameRequest kept) (activateLink (s.setKept [])))
      else
        receiveBytes steps (kept.drop 1 ++ rest) (raiseLinkError .badCheck (keptTag kept) (s.setKept []))

/-- Enough steps for a byte taken over a partial frame: with n bytes in hand at most n are taken between two discards, and
each discard leaves one fewer. -/
def receiverSteps (kept : List Byte) : Nat := (kept.length + 2) * (kept.length + 2)

/-- One byte taken from the line. -/
def receiveByte (b : Byte) (s : State) : State := receiveBytes (receiverSteps s.link.kept) [b] s

/-! ### The request engine (R179, R183) -/

/-- The state after the request engine has taken a request: RUNNING, and the request the oldest in the queue (R179). -/
def takeRequest (q : Request) (s : State) : Option State :=
  match s.link.engine, s.link.requests with
  | .running, head :: rest => if head = q then some (s.setLink { s.link with requests := rest }) else none
  | _, _ => none

/-- A reply of the request engine or of an owner at the taking of a request: its request was taken just now, so it is not
stale (R175, R179). -/
def answer (tag : Byte) (status : Status) (body : List Byte) (s : State) : State := makeReply tag false status body s

/-- Dispatch of a taken request of a known kind (R183): body length, then INIT, then the owner. -/
def dispatch (q : Request) (owner : State → State) (s : State) : State :=
  if requestBodyLength q.kind ≠ some q.body.length then answer q.tag .badLength [] s
  else if s.device = .init ∧ answeredInInit q.kind = false then answer q.tag .notReady [] s
  else owner s

/-- A request command: the engine takes the request and dispatches it. Where the engine cannot take it (HELD, or another
request is the oldest) the event does not occur and nothing changes: DESIGN CHOICE, safe, notes/assumptions/2.md, 3.md. -/
def serve (kind tag : Byte) (body : List Byte) (owner : State → State) (s : State) : State :=
  match takeRequest ⟨kind, tag, body⟩ s with
  | some t => dispatch ⟨kind, tag, body⟩ owner t
  | none => s

end Sys2Proof.Machine
end

