-- ==== Sys2Proof/Machine/Startup.lean ====
section
/-! DEFINITION. HARD_RESET, SWEEP_STEP_COMPLETE and DIRECTORY_CLEAR_COMPLETE (1.5, 1.6, 12.2). -/

namespace Sys2Proof.Machine

/-- The meanings' outcome when the command takes effect or leaves the state as it is. -/
abbrev Result := Host.Outcome State Fault Refusal

/-! ### HARD_RESET (R190) -/

/-- The ready cause a hard reset sets (R163). -/
def readyCauseOf : ResetCause → ReadyCause
  | .powerOn => .power
  | .rstN => .pin

/-- The DRAM after a hard reset: the bytes that the operation on the port had begun to write hold values with no meaning
(R18), free values of Config; every other byte is as left. notes/assumptions/7.md, 8.md. -/
def abandonedMemory (st : Store) (draw : Nat) : List Host.Cell :=
  match st.port with
  | none => st.memory
  | some op =>
    let span := op.writeSpan
    Memory.write st.memory span.1 ((List.range span.2).map (fun i => Config.abandonedByte draw (span.1 + i)))

/-- The words in which an error stands after a hard reset: those that the operation on the port had begun to write may hold
check bits that do not match or may not (R18), so no error is held of them and the cells decide their next read; every other
word is as left. notes/assumptions/4.md. -/
def abandonedErrors (st : Store) : List (Nat × WordOutcome) :=
  match st.port with
  | none => st.errors
  | some op => freshWords st.errors (op.writeSpan.1 / 8) (op.writeSpan.2 / 8)

/-- HARD_RESET (R190): every block takes its hard-reset values, the straps are sampled, and initialization begins (R15). -/
def execHardReset (cause : ResetCause) (rate : BitVec 2) (mode : InitMode) (s : State) : Result :=
  .next { State.reset with
    pending := s.pending
    freeCount := s.freeCount + 1
    link := Link.reset (lineRateOf rate)
    events := EventQueue.reset (readyCauseOf cause)
    store := Store.reset mode (abandonedMemory s.store s.freeCount) (abandonedErrors s.store) }

/-! ### Initialization (R15 to R17, R29, R190) -/

/-- Initialization completes (R17, R190): serving with the port free, the pool built (R29), RUN, READY with the ready cause
(R163), and the pool notice evaluated behind it (R38). -/
def completeInitialization (s : State) : State :=
  let t := s.setStore { s.store with
    condition := .serving, initProgress := Config.storePages, port := none, directoryOps := [],
    portPointer := 3, windowPointer := 3, fetchWait := 0 }
  let u := (buildPool t).setDevice .run
  evaluateNotice (raiseEvent .ready (.ready u.events.readyCause) u)

/-- The outcome of a sweep step reported (R16): to the region controller for a directory page, to the page allocator for a
data page (R29, R41). -/
def reportSwept (page : Nat) (good : Bool) (s : State) : State :=
  match regionArg page with
  | some r => s.setRegion r { s.region r with suspect := !good }
  | none => if good then s else retirePage page .sweep none s

/-- Init progress after page `p` has been handled, with the next step of the sweep begun or initialization completed. -/
def sweepAdvance (p : Nat) (s : State) : State :=
  if p + 1 < Config.storePages then
    s.setStore { s.store with initProgress := p + 1, port := some (.sweepStep (p + 1)) }
  else completeInitialization s

/-- SWEEP_STEP_COMPLETE (R16): the page holds its test pattern, its corrected words are counted (R9), and it is judged. -/
def execSweepStepComplete (words : List (Nat × WordRead)) (s : State) : Result :=
  match s.store.port with
  | some (.sweepStep p) =>
    if (StoreOp.sweepStep p).inStore then
      let t := storeBytes (p * Config.pageBytes) (patternPage p) s
      let u := readWords (p * Config.pageWords) Config.pageWords (fun i => (wordReadAt words i).outcome) t
      let good := !(List.range Config.pageWords).any (sweepWordFails p words)
      .next (sweepAdvance p (reportSwept p good u))
    else .fault .outsideStore
  | _ => .next s

/-- DIRECTORY_CLEAR_COMPLETE (R15): the directory page is zero, and the next clear begins or initialization completes. -/
def execDirectoryClearComplete (s : State) : Result :=
  match s.store.port with
  | some (.directoryClear p) =>
    if (StoreOp.directoryClear p).inStore then
      let t := storeBytes (p * Config.pageBytes) (List.replicate Config.pageBytes 0) s
      if p + 1 < Config.directoryPages then
        .next (t.setStore { t.store with initProgress := p + 1, port := some (.directoryClear (p + 1)) })
      else .next (completeInitialization t)
    else .fault .outsideStore
  | _ => .next s

end Sys2Proof.Machine
end

