-- ==== Sys2Proof/Machine/Capture.lean ====
section
/-! DEFINITION. BYTE_STROBE: record assembly and acceptance at a capture port (6.1, 6.2). -/

namespace Sys2Proof.Machine

/-- A port with its counts changed. -/
def Port.count (q : Port) (f : PortCounts → PortCounts) : Port := { q with counts := f q.counts }

/-- A record start (R100, first row): ASSEMBLING with this byte, the marker flag, and the rec_size in force (R99). -/
def startRecord (p : PortId) (r : RegionId) (data : Byte) (mrk : Bool) (s : State) : State :=
  s.setPort p { s.port p with assembly := some ⟨[data], mrk, (s.region r).recSize⟩ }

/-- An IDLE drop (R102). -/
def dropIdle (p : PortId) (s : State) : State :=
  s.setPort p ((s.port p).count (fun c => { c with arrived := c.arrived + 1, dropIdle := c.dropIdle + 1 }))

/-- A FULL drop (R102), with OVERRUN raised while the overrun notice is enabled (R105). -/
def dropFull (p : PortId) (s : State) : State :=
  let t := s.setPort p ((s.port p).count (fun c => { c with arrived := c.arrived + 1, dropFull := c.dropFull + 1 }))
  if (s.port p).overrunEnable then
    raiseEvent (.overrun p) (.overrun (reported (t.port p).counts.dropFull)) t
  else t

/-- A record staged at the tail (R102, R103); a RUNNING writer takes the head of a queue that was empty (R110), and the store
port grants what the writer may have issued (R12). -/
def stageRecord (p : PortId) (record : StagedRecord) (s : State) : State :=
  let q := s.port p
  let t := s.setPort p ({ q with staging := q.staging ++ [record] }.count
    (fun c => { c with arrived := c.arrived + 1 }))
  if q.staging = [] then storeGrant (takeHead p t) else t

/-- An arrived record's fate, decided at its arrival (R102). -/
def recordArrives (p : PortId) (r : RegionId) (record : StagedRecord) (size : Nat) (s : State) : State :=
  let g := s.region r
  if (s.port p).halted ∨ g.capturing = false ∨ size ≠ g.recSize then dropIdle p s
  else if Config.stagingMax ≤ (s.port p).staging.length then dropFull p s
  else stageRecord p record s

/-- A record start that makes the record being assembled short (R100, last row). -/
def shortRecord (p : PortId) (s : State) : State :=
  s.setPort p ((s.port p).count (fun c => { c with arrived := c.arrived + 1, dropShort := c.dropShort + 1 }))

/-- One byte taken by a port (R100, R101). -/
def takePortByte (p : PortId) (data : Byte) (sor mrk : Bool) (s : State) : State :=
  match (s.port p).binding with
  | none => if sor then dropIdle p s else s
  | some r =>
    match (s.port p).assembly with
    | none => if sor then startRecord p r data mrk s else s
    | some a =>
      if sor then startRecord p r data mrk (shortRecord p s)
      else if a.size ≤ a.bytes.length + 1 then
        recordArrives p r ⟨a.bytes ++ [data], a.marker⟩ a.size (s.setPort p { s.port p with assembly := none })
      else s.setPort p { s.port p with assembly := some { a with bytes := a.bytes ++ [data] } }

/-- BYTE_STROBE (R100): the byte is handled by the port's assembly state. -/
def execByteStrobe (p : PortId) (data : Byte) (sor mrk : Bool) (s : State) : Result :=
  .next (takePortByte p data sor mrk s)

end Sys2Proof.Machine
end

