-- ==== Sys2Proof/Machine/Completions.lean ====
section
/-! DEFINITION. The completions of store operations: RECORD_WRITE_COMPLETE, DIRECTORY_READ_COMPLETE, DIRECTORY_WRITE_COMPLETE
and RECORD_READ_COMPLETE (chapters 1 and 4 to 8). A completion makes the operation's effect on the stored words, is taken by
the block that issued it, and frees the port; the arbiter then grants among everything that waits (R4, R12). With no such
operation on the port the event does not occur: nothing changes (notes/assumptions/2.md). -/

namespace Sys2Proof.Machine

/-! ### RECORD_WRITE_COMPLETE (R112) -/

/-- The writer takes the completion of its record write (R112). -/
def recordWritten (p : PortId) (w : RecordWrite) (s : State) : State :=
  let t := storeBytes (w.page * Config.pageBytes + w.offset) w.bytes (freePort s)
  let q := t.port p
  let u := t.setPort p { q with counts := { q.counts with stored := q.counts.stored + 1 }, inFlight := none }
  takeHead p (completionReport w.region u)

def execRecordWriteComplete (s : State) : Result :=
  match s.store.port with
  | some (.recordWrite p w) =>
    if (StoreOp.recordWrite p w).inStore then .next (storeGrant (recordWritten p w s)) else .fault .outsideStore
  | _ => .next s

/-! ### DIRECTORY_READ_COMPLETE (R89, R91) -/

/-- The slot cache's answer to a writer's lookup: a RUNNING writer goes on with its recycle (R113); otherwise the outstanding
claim ends (R117), as it does after an uncorrectable read (R91). -/
def writerAnswer (p : PortId) (r : RegionId) (page : Option Nat) (s : State) : State :=
  match (s.port p).writer, (s.port p).claim, page with
  | .running, some ⟨l, .directoryRead, some rc, _⟩, some page => recycleStep p r l rc page s
  | _, _, _ => s.setPort p { s.port p with claim := none }

/-- The requester of a fill answered. -/
def answerRequester (r : RegionId) (page : Option Nat) (who : Requester) (s : State) : State :=
  match who with
  | .writer p => writerAnswer p r page s
  | .window w => fetchAnswer w page s

/-- A fill's completion taken by the slot cache (R89, R91). -/
def fillCompletes (r : RegionId) (slot : Nat) (who : Requester) (page : Option Nat) (s : State) : State :=
  match page with
  | some v =>
    let fill := fillPageNumber r slot v s
    answerRequester r (some fill.1) who fill.2
  | none => answerRequester r none who (faultReport r s)

def execDirectoryReadComplete (word : WordRead) (s : State) : Result :=
  match s.store.port with
  | some (.directory (.read r slot who)) =>
    if (StoreOp.directory (.read r slot who)).inStore then
      let read := s.store.wordRead (slotWord r slot) word
      let t := readWords (slotWord r slot) 1 (fun _ => word.outcome) (freePort s)
      .next (storeGrant (fillCompletes r slot who (directoryReadPage s.store.memory r slot read) t))
    else .fault .outsideStore
  | _ => .next s

/-! ### DIRECTORY_WRITE_COMPLETE (R8, R113, R117) -/

/-- The directory write's outcome ok, taken by the writer: a RUNNING writer's claim ends with the page and the record write is
issued (R113); an outstanding claim ends (R117). -/
def directoryWritten (p : PortId) (r : RegionId) (page : Nat) (s : State) : State :=
  match (s.port p).writer, (s.port p).claim with
  | .running, some c => claimEnds p r c.newPage page s
  | _, _ => s.setPort p { s.port p with claim := none }

/-- The directory write's outcome uncorrectable: the claim ends and the region controller takes the report (R62, R64). -/
def directoryWriteFails (p : PortId) (r : RegionId) (s : State) : State :=
  faultReport r (s.setPort p { s.port p with claim := none })

def execDirectoryWriteComplete (word : WordRead) (s : State) : Result :=
  match s.store.port with
  | some (.directory (.write r slot page p)) =>
    if (StoreOp.directory (.write r slot page p)).inStore then
      let t := readWords (slotWord r slot) 1 (fun _ => word.outcome) (freePort s)
      match deliveredWord s.store.memory (slotWordAddress r slot) (s.store.wordRead (slotWord r slot) word) with
      | some data =>
        .next (storeGrant (directoryWritten p r page (storeBytes (slotWordAddress r slot) (wordWithSlot data slot page) t)))
      | none => .next (storeGrant (directoryWriteFails p r (leaveUnreadable (slotWord r slot) t)))
    else .fault .outsideStore
  | _ => .next s

/-! ### RECORD_READ_COMPLETE (R6, R129 to R132, R146) -/

/-- An uncorrectable record read (R146): the page marked suspect and MEDIA_ERROR RECORD raised for the fetch's region. -/
def recordError (w : WindowId) (page k : Nat) (s : State) : State :=
  let r := (s.window w).region
  raiseEvent (.mediaError r) (.mediaError page .record (some k)) (markSuspect page s)

/-- The fetch engine takes the completion of a fetch's record read (R129, R132). -/
def recordReadTaken (w : WindowId) (op : RecordRead) (uncorrectable : Bool) (bytes : List Byte) (s : State) : State :=
  match (s.window w).fetch with
  | none => s
  | some f =>
    let t := if uncorrectable then recordError w op.page f.current s else s
    match f.endCause with
    | some cause => fetchEndByCause w f cause t
    | none => if uncorrectable then fetchEnd w f .mediaError f.gathered t else fetchRecord w f bytes t

def execRecordReadComplete (words : List (Nat × WordOutcome)) (s : State) : Result :=
  match s.store.port with
  | some (.recordRead w op) =>
    if (StoreOp.recordRead w op).inStore then
      let a := op.page * Config.pageBytes + op.offset
      let n := op.length / 8
      let t := readWords (a / 8) n (wordOutcomeAt words) (freePort s)
      let uncorrectable := anyUncorrectable (s.store.wordOutcome (a / 8) (wordOutcomeAt words)) n
      .next (storeGrant (recordReadTaken w op uncorrectable (Memory.readBytes s.store.memory a op.length) t))
    else .fault .outsideStore
  | _ => .next s

end Sys2Proof.Machine
end

