-- ==== Sys2Proof/Machine/Walks.lean ====
section
/-! DEFINITION. The walks of the ownership table: RELEASE_WALK_STEP, RESTART_WALK_BEGIN and RESTART_WALK_STEP, with the end of
the restart sequence (2.8, 12.3). -/

namespace Sys2Proof.Machine

/-! ### RELEASE_WALK_STEP (R31, R32) -/

/-- Body of a RELEASE reply (11.5). -/
def releaseBody (region : Byte) (returned retired : Nat) : List Byte := [region] ++ beBytes 2 returned ++ beBytes 2 retired

/-- The end of a release walk (R32, R61): the region IDLE, the RELEASE reply, the scanner IDLE. -/
def releaseWalkEnds (r : RegionId) (returned retired : Nat) (tag : Byte) (stale : Bool) (s : State) : State :=
  let t := s.setRegion r { s.region r with state := .idle }
  let u := makeReply tag stale .ok (releaseBody (numberByte r.val) returned retired) t
  u.setAlloc { u.alloc with scanner := .idle }

/-- The scanner after an examination: at the next page, or the walk ended after page 16383. -/
def releaseAdvance (r : RegionId) (page returned retired : Nat) (tag : Byte) (stale : Bool) (s : State) : State :=
  if page + 1 < Config.storePages then
    s.setAlloc { s.alloc with scanner := .releaseWalk r (page + 1) returned retired tag stale }
  else releaseWalkEnds r returned retired tag stale s

/-- RELEASE_WALK_STEP (R31). -/
def execReleaseWalkStep (s : State) : Result :=
  match s.alloc.scanner with
  | .releaseWalk r page returned retired tag stale =>
    match tableEntry s.alloc.table page with
    | .owned owner suspect =>
      if owner = r then
        if suspect then .next (releaseAdvance r page returned (retired + 1) tag stale (retireOwned r page .release s))
        else .next (releaseAdvance r page (returned + 1) retired tag stale (evaluateNotice (returnPage r page s)))
      else .next (releaseAdvance r page returned retired tag stale s)
    | _ => .next (releaseAdvance r page returned retired tag stale s)
  | _ => .next s

/-! ### RESTART_WALK_BEGIN (R34, R96) -/

/-- Every entry invalid, the victim pointer 0, the counts 0 (R96). -/
def purgeAll (s : State) : State := s.setCache Cache.reset

/-- RESTART_WALK_BEGIN (R34): taken once the store controller is idle during RESTART; the cache's purge goes with it (R192). -/
def execRestartWalkBegin (s : State) : Result :=
  if s.device = .restarting ∧ s.alloc.scanner = .idle ∧ s.store.idle then
    .next (purgeAll (s.setAlloc { s.alloc with scanner := .restartWalk Config.directoryPages }))
  else .next s

/-! ### RESTART_WALK_STEP (R34, R192) -/

/-- A region at the end of RESTART (R68): IDLE if defined. -/
def Region.restarted (g : Region) : Region := if g.state = .unused then g else { g with state := .idle }

/-- A port's counter clear (R119). -/
def Port.cleared (q : Port) : Port := { q with assembly := none, counts := PortCounts.zero, halted := false }

/-- The event queue emptied and READY raised with cause RESTART (R164). -/
def restartEvents (s : State) : State :=
  raiseEvent .ready (.ready .restart) (s.setEvents { s.events with entries := [] })

/-- The RESTART reply made and the engine RUNNING (R192 stage 6). -/
def restartReply (s : State) : State :=
  let t := match s.restart with
    | some q => makeReply q.tag q.stale .ok [] s
    | none => s
  (t.setRestart none).setLink { t.link with engine := .running }

/-- The stages of R192 after the restart walk has examined page 16383. -/
def restartCompletes (s : State) : State :=
  let t := finishRestartWalk s
  let u := t.setRegions (t.regions.map Region.restarted)
  let v := u.setPorts (u.ports.map Port.cleared)
  let w := (restartEvents v).setDevice .run
  restartReply (evaluateNotice (w.setAlloc { w.alloc with armed := true }))

/-- The page examined by a restart-walk step (R34). -/
def restartExamine (page : Nat) (s : State) : State :=
  match tableEntry s.alloc.table page with
  | .owned owner suspect => if suspect then retireOwned owner page .restart s else returnPage owner page s
  | _ => s

/-- RESTART_WALK_STEP (R34). -/
def execRestartWalkStep (s : State) : Result :=
  match s.alloc.scanner with
  | .restartWalk page =>
    let t := restartExamine page s
    if page + 1 < Config.storePages then .next (t.setAlloc { t.alloc with scanner := .restartWalk (page + 1) })
    else .next (restartCompletes t)
  | _ => .next s

end Sys2Proof.Machine
end

