-- ==== Sys2Proof/Machine/Line.lean ====
section
/-! DEFINITION. The host link's line events: FRAME_RECEIVED, CHARACTER_TAKEN, INTER_BYTE_TIMEOUT, LINK_BREAK and
TRANSMIT_FRAME_END (chapter 10). -/

namespace Sys2Proof.Machine

/-- FRAME_RECEIVED (R169): the second CHECK byte taken. Where the receiver is elsewhere in a frame the byte is handled by its
phase, as R168 handles every byte. -/
def execFrameReceived (data : Byte) (s : State) : Result := .next (receiveByte data s)

/-- CHARACTER_TAKEN (R168); a character with a framing error is discarded and is no byte of any frame (R167). -/
def execCharacterTaken (data : Byte) (stopBit : Bool) (s : State) : Result :=
  if stopBit then .next (receiveByte data s) else .next s

/-- INTER_BYTE_TIMEOUT (R170): the partial frame is dropped whole and LINK_ERROR TRUNCATED raised. In HUNT no timeout runs. -/
def execInterByteTimeout (s : State) : Result :=
  if interByteTimerRunning s.link then
    .next (raiseLinkError .truncated (keptTag s.link.kept) (s.setKept []))
  else .next s

/-- A window's running requests marked stale (R175). -/
def Window.markStale (w : Window) : Window :=
  { w with
    fetch := w.fetch.map (fun f => { f with stale := true })
    closeTag := w.closeTag.map (fun c => { c with stale := true }) }

/-- The scanner's RELEASE marked stale (R175). -/
def Scanner.markStale : Scanner → Scanner
  | .releaseWalk r page returned retired tag _ => .releaseWalk r page returned retired tag true
  | x => x

/-- LINK_BREAK (R173): the partial frame is discarded with no LINK_ERROR; a break while ACTIVE does the rest. -/
def execLinkBreak (s : State) : Result :=
  let t := s.setKept []
  if s.link.state = .active then
    .next { t with
      link := { t.link with
        state := .quiet
        epoch := t.link.epoch + 1
        transmitting := none
        requests := []
        replies := []
        outstanding := 0
        runCount := 0 }
      events := { t.events with readyCause := .link }
      windows := t.windows.map Window.markStale
      alloc := { t.alloc with scanner := t.alloc.scanner.markStale }
      restart := t.restart.map (fun q => { q with stale := true }) }
  else .next t

/-- TRANSMIT_FRAME_END (R177): the transmitter becomes free and the arbiter decides (R178). -/
def execTransmitFrameEnd (s : State) : Result :=
  match s.link.transmitting with
  | some _ => .next (arbitrate (s.setLink { s.link with transmitting := none }))
  | none => .next s

end Sys2Proof.Machine
end

