-- ==== Sys2Proof/Machine/DeviceRequests.lean ====
section
/-! DEFINITION. The requests the device and the page allocator answer: UNKNOWN_KIND, IDENTIFY, STATUS, RESTART,
SET_POOL_NOTICE and RETIRED (chapters 2, 11 and 12). -/

namespace Sys2Proof.Machine

/-- A body of zeros after the fields it begins with, to a length (R184: a field the rule does not name is sent as zero). -/
def zeroFilled (n : Nat) (fields : List Byte) : List Byte := fields ++ List.replicate (n - fields.length) 0

/-! ### UNKNOWN_KIND (R183) -/

/-- UNKNOWN_KIND (R183): a taken request whose KIND is not one of the eighteen request codes. -/
def execUnknownKind (kind tag : Byte) (body : List Byte) (s : State) : Result :=
  match requestBodyLength kind, takeRequest ⟨kind, tag, body⟩ s with
  | none, some t => .next (answer tag .unknownKind [] t)
  | _, _ => .next s

/-! ### IDENTIFY (R194) -/

/-- Body of an IDENTIFY reply (11.5, R194). -/
def identifyBody (s : State) : List Byte :=
  beBytes 2 Config.partCode ++ [numberByte Config.revision] ++ beBytes 2 Config.pageBytes ++ beBytes 2 Config.storePages
    ++ beBytes 2 Config.dataPages ++ [16, 4, 4, 24, s.link.epoch]

def execIdentify (tag : Byte) (body : List Byte) (s : State) : Result :=
  .next (serve 0x01 tag body (fun t => answer tag .ok (identifyBody t) t) s)

/-! ### STATUS (R195) -/

/-- Body of a STATUS reply (11.5, R195). -/
def statusBody (s : State) : List Byte :=
  [s.device.code] ++ beBytes 2 s.alloc.pool.length ++ beBytes 2 s.alloc.reservedTotal ++ beBytes 2 s.alloc.available
    ++ beBytes 2 s.alloc.threshold ++ beBytes 2 s.alloc.retiredCount ++ [flagBits [s.alloc.retiredIncomplete]]
    ++ beBytes 2 s.store.correctable ++ beBytes 4 s.cache.hits ++ beBytes 4 s.cache.misses
    ++ [s.link.epoch, numberByte s.link.outstanding] ++ s.regions.toList.map (fun g => g.state.code)

def execStatus (tag : Byte) (body : List Byte) (s : State) : Result :=
  .next (serve 0x02 tag body (fun t => answer tag .ok (statusBody t) t) s)

/-! ### RESTART (R191) -/

/-- Stage 1 of R191: a release walk abandoned, its reply ABORTED (R33). -/
def abandonRelease (s : State) : State :=
  match s.alloc.scanner with
  | .releaseWalk r _ returned retired tag stale =>
    makeReply tag stale .aborted (releaseBody (numberByte r.val) returned retired)
      (s.setAlloc { s.alloc with scanner := .idle })
  | _ => s

/-- Stage 2 of R191: every writer takes a stop notice and its port becomes halted (R119). -/
def haltPorts (s : State) : State :=
  s.setPorts (s.ports.map (fun q => { q.stopped with halted := true }))

/-- Stage 3 of R191: every window taken (R142). -/
def closeWindows (s : State) : State := (List.finRange 4).foldl restartWindow s

/-- RESTART taken in RUN (R191): the engine HELD, RESTARTING, and stages 1 to 3. -/
def beginRestart (tag : Byte) (s : State) : State :=
  let t := (s.setLink { s.link with engine := .held }).setDevice .restarting
  closeWindows (haltPorts (abandonRelease (t.setRestart (some ⟨tag, false⟩))))

def execRestart (tag : Byte) (body : List Byte) (s : State) : Result :=
  .next (serve 0x03 tag body (beginRestart tag) s)

/-! ### SET_POOL_NOTICE (R37) -/

/-- Body of a SET_POOL_NOTICE reply answered OK (11.5). -/
def noticeBody (s : State) : List Byte :=
  beBytes 2 s.alloc.threshold ++ beBytes 2 s.alloc.available ++ beBytes 2 s.alloc.reservedTotal

/-- SET_POOL_NOTICE at the page allocator (R37). -/
def setNotice (tag : Byte) (threshold : Nat) (s : State) : State :=
  if threshold ≤ Config.dataPages then
    let t := evaluateNotice (s.setAlloc { s.alloc with threshold := threshold, armed := true })
    answer tag .ok (noticeBody t) t
  else answer tag .badArg (zeroFilled 6 []) s

def execSetPoolNotice (tag : Byte) (body : List Byte) (s : State) : Result :=
  .next (serve 0x04 tag body (setNotice tag (field body 0 2)) s)

/-! ### RETIRED (R35) -/

/-- One entry of a RETIRED reply (11.5). -/
def retiredEntryBytes (e : RetiredEntry) : List Byte :=
  beBytes 2 e.page ++ [e.origin.code, optionalNumber e.region]

/-- RETIRED at the page allocator (R35, R186). -/
def readRetired (tag : Byte) (offset : Nat) (s : State) : State :=
  let l := s.alloc.retiredList.length
  let flags := flagBits [s.alloc.retiredIncomplete]
  if offset ≤ l then
    let n := min Config.retiredReplyMax (l - offset)
    let entries := (s.alloc.retiredList.drop offset).take n
    answer tag .ok (beBytes 2 l ++ [flags] ++ beBytes 2 offset ++ beBytes 2 n ++ entries.flatMap retiredEntryBytes) s
  else answer tag .badArg (zeroFilled 7 (beBytes 2 l ++ [flags])) s

def execRetired (tag : Byte) (body : List Byte) (s : State) : Result :=
  .next (serve 0x05 tag body (readRetired tag (field body 0 2)) s)

end Sys2Proof.Machine
end

