-- ==== Sys2Proof/Machine/RegionRequests.lean ====
section
/-! DEFINITION. The region requests: DEFINE, ARM, TRIGGER, STOP, RELEASE, QUERY and SET_EVENTS (chapter 3). -/

namespace Sys2Proof.Machine

/-- A refusal of a request whose reply carries one number field and zeros after it (R43, R184). -/
def refuse (tag : Byte) (status : Status) (length : Nat) (number : Byte) (s : State) : State :=
  answer tag status (zeroFilled length [number]) s

/-- The first byte of a request's body: its region, window or port number field. -/
def numberField (body : List Byte) : Byte := body.headD 0

/-- The region controller's taking of a request (R43): a region number out of range is answered BAD_ARG, whatever the kind. -/
def withRegion (tag : Byte) (body : List Byte) (length : Nat) (f : RegionId → State → State) (s : State) : State :=
  match regionArg (field body 0 1) with
  | none => refuse tag .badArg length (numberField body) s
  | some r => f r s

/-! ### DEFINE (R44, R45) -/

/-- Body of a DEFINE reply answered OK (11.5). -/
def defineBody (r : RegionId) (g : Region) (p : Params) : List Byte :=
  [numberByte r.val, numberByte p.sizeCode] ++ beBytes 2 p.quota ++ beBytes 2 p.anchor ++ beBytes 4 p.postCount
    ++ [p.pinPolicy.code] ++ beBytes 3 p.markInterval ++ beBytes 2 g.rpp

/-- A region record after DEFINE (R45). -/
def Region.defined (g : Region) (p : Params) : Region :=
  { Region.startCapture { g with params := some p } with state := .idle }

/-- DEFINE at the region controller (R43 to R45). -/
def defineRegion (tag : Byte) (body : List Byte) (r : RegionId) (s : State) : State :=
  let g := s.region r
  if g.state = .unused ∨ g.state = .idle then
    match paramsArg body with
    | none => refuse tag .badArg 16 (numberField body) s
    | some p => answer tag .ok (defineBody r (g.defined p) p) (s.setRegion r (g.defined p))
  else refuse tag .badState 16 (numberField body) s

def execDefine (tag : Byte) (body : List Byte) (s : State) : Result :=
  .next (serve 0x10 tag body (withRegion tag body 16 (defineRegion tag body)) s)

/-! ### ARM (R46, R47) -/

/-- Body of an ARM reply (11.5). -/
def armBody (r : RegionId) (reservation available : Nat) : List Byte :=
  [numberByte r.val] ++ beBytes 2 reservation ++ beBytes 2 available

/-- The capturing notice to the writer of a region's bound port, if it has one (R47 step 4). -/
def notifyCapturing (r : RegionId) (s : State) : State :=
  match (s.region r).boundPort with
  | some p => capturingNotice p s
  | none => s

/-- A region record after ARM (R47). -/
def Region.armedRecord (g : Region) : Region := { g.startCapture with state := .armed }

/-- ARM at the region controller (R46, R47). -/
def armRegion (tag : Byte) (r : RegionId) (s : State) : State :=
  let g := s.region r
  if g.state ≠ .idle then refuse tag .badState 5 (numberByte r.val) s
  else if g.suspect then refuse tag .mediaError 5 (numberByte r.val) s
  else
    match reserve r (g.anchor + 2) s with
    | none => answer tag .noPages (armBody r (g.anchor + 2) s.alloc.available) s
    | some t =>
      let u := storeGrant (notifyCapturing r (t.setRegion r (t.region r).armedRecord))
      answer tag .ok (armBody r (g.anchor + 2) t.alloc.available) u

def execArm (tag : Byte) (body : List Byte) (s : State) : Result :=
  .next (serve 0x11 tag body (withRegion tag body 5 (armRegion tag)) s)

/-! ### TRIGGER (R48, R49) -/

/-- Body of a TRIGGER reply answered OK (11.5). -/
def triggerBody (r : RegionId) (earlier : Bool) (t : Option Trigger) : List Byte :=
  match t with
  | some t => [numberByte r.val, flagBits [earlier, true]] ++ beBytes 6 t.seq ++ [t.source.code]
  | none => [numberByte r.val, flagBits [earlier, false]] ++ beBytes 6 0 ++ [0]

/-- TRIGGER at the region controller (R48, R49). -/
def triggerRegion (tag : Byte) (r : RegionId) (s : State) : State :=
  let g := s.region r
  if g.state = .armed then
    let trig : Trigger := ⟨g.committed, .host⟩
    let t := s.setRegion r { g with state := .triggered, trigger := some trig }
    answer tag .ok (triggerBody r false (some trig)) (raiseEvent (.triggered r) (.triggered trig.seq .host) t)
  else if g.state = .triggered then answer tag .ok (triggerBody r true g.trigger) s
  else refuse tag .badState 9 (numberByte r.val) s

def execTrigger (tag : Byte) (body : List Byte) (s : State) : Result :=
  .next (serve 0x12 tag body (withRegion tag body 9 (triggerRegion tag)) s)

/-! ### STOP (R52, R53) -/

/-- Body of a STOP reply answered OK (11.5). -/
def stopBody (r : RegionId) (g : Region) : List Byte :=
  [numberByte r.val, flagBits [false, g.trigger.isSome], stopCauseCode g.stopCause] ++ beBytes 6 g.committed
    ++ beBytes 6 (g.triggerSeq.getD 0)

/-- STOP at the region controller (R52, R53). -/
def stopRequest (tag : Byte) (r : RegionId) (s : State) : State :=
  let g := s.region r
  if g.capturing then
    let t := stopRegion r .host s
    answer tag .ok (stopBody r (t.region r)) t
  else if g.state = .stopped then answer tag .ok (stopBody r g) s
  else refuse tag .badState 15 (numberByte r.val) s

def execStop (tag : Byte) (body : List Byte) (s : State) : Result :=
  .next (serve 0x13 tag body (withRegion tag body 15 (stopRequest tag)) s)

/-! ### RELEASE (R59, R60) -/

/-- A window is OPEN or CLOSING on the region (R59 test 1). -/
def windowOpenOn (r : RegionId) (s : State) : Bool :=
  (List.finRange 4).any (fun w => (s.window w).state ≠ .closed ∧ (s.window w).region = r)

/-- The writer still has a record write in flight, or the directory operation of a page claim issued and not completed
(R59 test 2, R106 test 6). -/
def Port.working (q : Port) : Bool :=
  q.inFlight.isSome || match q.claim with
    | some c => c.stage ≠ .pinHold
    | none => false

/-- The writer of the region's bound port has such work. -/
def writerWorking (r : RegionId) (s : State) : Bool :=
  match (s.region r).boundPort with
  | some p => (s.port p).working
  | none => false

/-- The release scanner is in RELEASE_WALK. -/
def Scanner.walking : Scanner → Bool
  | .releaseWalk _ _ _ _ _ _ => true
  | _ => false

/-- A RELEASE accepted (R30, R59): the region's cache entries purged, RELEASING, and the walk started with the tag. -/
def beginRelease (tag : Byte) (r : RegionId) (s : State) : State :=
  let t := s.setCache (s.cache.purgeRegion r)
  let u := t.setRegion r { t.region r with state := .releasing }
  u.setAlloc { u.alloc with scanner := .releaseWalk r Config.directoryPages 0 0 tag false }

/-- RELEASE at the region controller (R59, R60). -/
def releaseRegion (tag : Byte) (r : RegionId) (s : State) : State :=
  let g := s.region r
  if g.state = .idle then answer tag .ok (releaseBody (numberByte r.val) 0 0) s
  else if g.state = .releasing then refuse tag .busy 5 (numberByte r.val) s
  else if g.state = .stopped ∨ g.state = .faulted then
    if windowOpenOn r s || writerWorking r s || s.alloc.scanner.walking then refuse tag .busy 5 (numberByte r.val) s
    else beginRelease tag r s
  else refuse tag .badState 5 (numberByte r.val) s

def execRelease (tag : Byte) (body : List Byte) (s : State) : Result :=
  .next (serve 0x14 tag body (withRegion tag body 5 (releaseRegion tag)) s)

/-! ### QUERY (R65) -/

/-- Body of a QUERY reply (11.5, its NOTE 1). -/
def queryBody (r : RegionId) (s : State) : List Byte :=
  let g := s.region r
  [numberByte r.val, g.state.code,
    flagBits [g.params.isSome, g.trigger.isSome, g.wrapLength.isSome, g.faultPage.isSome, g.suspect],
    numberByte g.sizeCode] ++ beBytes 2 g.quota ++ beBytes 2 g.anchor ++ beBytes 4 g.postCount
    ++ [g.pinPolicy.code] ++ beBytes 3 g.markInterval ++ beBytes 2 g.rpp ++ [g.eventMask.setWidth 8, optionalNumber g.boundPort]
    ++ beBytes 6 g.committed ++ beBytes 6 (g.triggerSeq.getD 0)
    ++ [(match g.trigger with | some t => t.source.code | none => 0), stopCauseCode g.stopCause]
    ++ beBytes 2 g.rollingCount ++ beBytes 2 (g.wrapLength.getD 0) ++ beBytes 6 g.oldest
    ++ beBytes 2 (s.owned r) ++ beBytes 2 (s.reservation r)
    ++ [numberByte (g.faultPage.getD 0), numberByte (s.cache.countRegion r)]

/-- QUERY at the region controller (R65). -/
def queryRegion (tag : Byte) (r : RegionId) (s : State) : State := answer tag .ok (queryBody r s) s

def execQuery (tag : Byte) (body : List Byte) (s : State) : Result :=
  .next (serve 0x15 tag body (withRegion tag body 50 (queryRegion tag)) s)

/-! ### SET_EVENTS (R66) -/

/-- Whether an event key is one of region r's kinds that a mask names. -/
def keyMasked (r : RegionId) (mask : BitVec 5) (key : EventKey) : Bool :=
  match key.maskBit with
  | some (q, i) => q = r && mask.getLsbD i
  | none => false

/-- SET_EVENTS accepted (R66, R159): the mask takes the new value and the pending entries of newly masked kinds go. -/
def setMask (r : RegionId) (mask : BitVec 5) (s : State) : State :=
  let newly := mask &&& ~~~(s.region r).eventMask
  let t := s.setRegion r { s.region r with eventMask := mask }
  t.setEvents { t.events with entries := t.events.entries.filter (fun e => !keyMasked r newly e.key) }

/-- SET_EVENTS at the region controller (R66). -/
def setEventsRegion (tag : Byte) (body : List Byte) (r : RegionId) (s : State) : State :=
  let m := field body 1 1
  if m < 32 then answer tag .ok [numberByte r.val, numberByte m] (setMask r (BitVec.ofNat 5 m) s)
  else refuse tag .badArg 2 (numberField body) s

def execSetEvents (tag : Byte) (body : List Byte) (s : State) : Result :=
  .next (serve 0x16 tag body (withRegion tag body 2 (setEventsRegion tag body)) s)

end Sys2Proof.Machine
end

