-- ==== Sys2Proof/Machine/PortRequests.lean ====
section
/-! DEFINITION. The port requests: BIND and PORT_QUERY (6.3). -/

namespace Sys2Proof.Machine

/-! ### BIND (R106, R107) -/

/-- The port's present region is ARMED or TRIGGERED (R106 test 2). -/
def presentCapturing (p : PortId) (s : State) : Bool :=
  match (s.port p).binding with
  | some r => (s.region r).capturing
  | none => false

/-- The target region is ARMED, TRIGGERED or UNUSED (R106 tests 3 and 4). -/
def targetUnready (target : Option RegionId) (s : State) : Bool :=
  match target with
  | some r => (s.region r).capturing || decide ((s.region r).state = .unused)
  | none => false

/-- The target region is bound to a port other than this one (R106 test 5). -/
def targetTaken (p : PortId) (target : Option RegionId) (s : State) : Bool :=
  match target with
  | some r =>
    match (s.region r).boundPort with
    | some q => q != p
    | none => false
  | none => false

/-- The first test of R106 that holds, for a port and a target in range; none when the BIND passes. -/
def bindRefusal (p : PortId) (target : Option RegionId) (s : State) : Option Status :=
  if presentCapturing p s then some .badState
  else if targetUnready target s then some .badState
  else if targetTaken p target s then some .busy
  else if (s.port p).working then some .busy
  else none

/-- A region's bound port changed. -/
def setBoundPort (r : RegionId) (p : Option PortId) (s : State) : State :=
  s.setRegion r { s.region r with boundPort := p }

/-- A port after BIND (R107 steps 2 to 6). -/
def Port.bound (q : Port) (target : Option RegionId) (markerEnable overrunEnable : Bool) : Port :=
  { q with
    binding := target
    markerEnable := markerEnable
    overrunEnable := overrunEnable
    assembly := none
    counts := PortCounts.zero
    writer := .idle
    fillPage := none
    claim := none }

/-- The regions' side of a binding's move (R107 steps 1 and 2). -/
def moveBinding (p : PortId) (target : Option RegionId) (s : State) : State :=
  let t := match (s.port p).binding with
    | some r => if target = some r then s else setBoundPort r none s
    | none => s
  match target with
  | some r => setBoundPort r (some p) t
  | none => t

/-- BIND at the capture port (R106, R107). -/
def bindAt (tag : Byte) (body : List Byte) (s : State) : State :=
  let enables := field body 2 1
  match portArg (field body 0 1), targetArg (field body 1 1) with
  | some p, some target =>
    if 4 ≤ enables then refuse tag .badArg 3 (numberField body) s
    else
      match bindRefusal p target s with
      | some status => refuse tag status 3 (numberField body) s
      | none =>
        let t := moveBinding p target s
        let u := t.setPort p ((t.port p).bound target (enables.testBit 0) (enables.testBit 1))
        answer tag .ok [numberByte p.val, optionalNumber target, numberByte enables] u
  | _, _ => refuse tag .badArg 3 (numberField body) s

def execBindPort (tag : Byte) (body : List Byte) (s : State) : Result :=
  .next (serve 0x20 tag body (bindAt tag body) s)

/-! ### PORT_QUERY (R108) -/

/-- Body of a PORT_QUERY reply (11.5, its NOTE 2). -/
def portQueryBody (p : PortId) (q : Port) : List Byte :=
  [numberByte p.val, optionalNumber q.binding,
    flagBits [q.markerEnable, q.overrunEnable, q.halted, q.assembly.isSome, q.inFlight.isSome, q.claim.isSome],
    q.writer.code] ++ beBytes 2 (match q.assembly with | some a => a.bytes.length | none => 0)
    ++ beBytes 2 (match q.assembly with | some a => a.size | none => 0)
    ++ beBytes 6 (q.inFlight.getD 0) ++ beBytes 6 (match q.claim with | some c => c.newPage | none => 0)
    ++ [claimStageCode (q.claim.map (·.stage)), numberByte q.staging.length]
    ++ beBytes 4 (reported q.counts.arrived) ++ beBytes 4 (reported q.counts.stored)
    ++ beBytes 4 (reported q.counts.dropIdle) ++ beBytes 4 (reported q.counts.dropFull)
    ++ beBytes 4 (reported q.counts.dropShort) ++ beBytes 4 (reported q.counts.dropFlush)

/-- PORT_QUERY at the capture port (R108). -/
def queryPort (tag : Byte) (body : List Byte) (s : State) : State :=
  match portArg (field body 0 1) with
  | none => refuse tag .badArg 46 (numberField body) s
  | some p => answer tag .ok (portQueryBody p (s.port p)) s

def execPortQuery (tag : Byte) (body : List Byte) (s : State) : Result :=
  .next (serve 0x21 tag body (queryPort tag body) s)

end Sys2Proof.Machine
end

