-- ==== Sys2Proof/Machine/WindowRequests.lean ====
section
/-! DEFINITION. The window requests: OPEN, FETCH, CLOSE and WINDOW_QUERY (chapter 7). -/

namespace Sys2Proof.Machine

/-! ### OPEN (R123, R124) -/

/-- The arguments of an OPEN with window and region in range. -/
structure OpenArgs where
  first : Nat
  last  : Nat
  pinned : Bool
  deriving DecidableEq, Repr

/-- The first test of R123 and R124 that refuses an OPEN, for arguments in range; none when it passes. -/
def openRefusal (w : WindowId) (r : RegionId) (a : OpenArgs) (s : State) : Option Status :=
  let g := s.region r
  if (s.window w).state ≠ .closed then some .busy
  else if g.state = .faulted then some .faulted
  else if g.capturing = false ∧ g.state ≠ .stopped then some .badState
  else if a.last < a.first then some .badArg
  else if a.pinned ∧ g.lostInRange a.first a.last then some .expired
  else if a.pinned ∧ g.committed ≤ a.last then some .notYet
  else none

/-- Body of an OPEN reply (11.5). -/
def openBody (window region : Byte) (first last cursor : Nat) (pin : Pin) (committed oldest : Nat) : List Byte :=
  [window, region] ++ beBytes 6 first ++ beBytes 6 last ++ beBytes 6 cursor ++ [pin.code] ++ beBytes 6 committed
    ++ beBytes 6 oldest

/-- Body of an OPEN reply that refuses (R184): the numbers, first and last as received, and the region's committed count and
oldest rolling seq where its number is in range. -/
def openRefusedBody (body : List Byte) (s : State) : List Byte :=
  let (committed, oldest) := match regionArg (field body 1 1) with
    | some r => ((s.region r).committed, (s.region r).oldest)
    | none => (0, 0)
  openBody (numberField body) (body.getD 1 0) (field body 2 6) (field body 8 6) 0 .none committed oldest

/-- A window record as OPEN leaves it (R123). -/
def openedWindow (r : RegionId) (a : OpenArgs) : Window where
  state := .opened
  region := r
  first := a.first
  last := a.last
  cursor := a.first
  pin := if a.pinned then .standing else .none
  fetch := none
  closeTag := none

/-- OPEN at the fetch engine (R123, R124). -/
def openAt (tag : Byte) (body : List Byte) (s : State) : State :=
  match windowArg (field body 0 1), regionArg (field body 1 1) with
  | some w, some r =>
    if 2 ≤ field body 14 1 then answer tag .badArg (openRefusedBody body s) s
    else
      let a : OpenArgs := ⟨field body 2 6, field body 8 6, field body 14 1 = 1⟩
      match openRefusal w r a s with
      | some status => answer tag status (openRefusedBody body s) s
      | none =>
        let x := openedWindow r a
        answer tag .ok (openBody (numberByte w.val) (numberByte r.val) x.first x.last x.cursor x.pin
          (s.region r).committed (s.region r).oldest) (s.setWindow w x)
  | _, _ => answer tag .badArg (openRefusedBody body s) s

def execOpenWindow (tag : Byte) (body : List Byte) (s : State) : Result :=
  .next (serve 0x30 tag body (openAt tag body) s)

/-! ### FETCH (R126, R127) -/

/-- The first test of R126 that refuses a FETCH of a window in range; none when it passes. -/
def fetchRefusal (w : WindowId) (count : Nat) (s : State) : Option Status :=
  let x := s.window w
  let g := s.region x.region
  if x.state = .closed then some .badState
  else if x.fetch.isSome then some .busy
  else if count < 1 ∨ 256 < count then some .badArg
  else if g.state = .faulted then some .faulted
  else if x.last < x.cursor then some .atEnd
  else if g.committed ≤ x.cursor then if g.capturing then some .notYet else some .atEnd
  else if g.retained x.cursor = false then some .expired
  else none

/-- N, the number of records to fetch: the least of five values (R127). -/
def fetchTotal (x : Window) (g : Region) (count : Nat) : Nat :=
  min count (min g.rpp (min (x.last + 1 - x.cursor) (min (g.committed - x.cursor) (g.intervalEnd x.cursor - x.cursor))))

/-- The fetch record of a FETCH that passes (R127). -/
def startFetch (tag : Byte) (w : WindowId) (count : Nat) (s : State) : Fetch where
  tag := tag
  stale := false
  asked := count
  total := fetchTotal (s.window w) (s.region (s.window w).region) count
  firstSeq := (s.window w).cursor
  gathered := []
  current := (s.window w).cursor
  stage := .lookup
  endCause := none

/-- FETCH at the fetch engine (R126 to R128). -/
def fetchAt (tag : Byte) (body : List Byte) (s : State) : State :=
  let count := field body 1 2
  match windowArg (field body 0 1) with
  | none => answer tag .badArg (fetchBody (numberField body) 0 0 0 []) s
  | some w =>
    let cursor := (s.window w).cursor
    match fetchRefusal w count s with
    | some status => answer tag status (fetchBody (numberField body) (fetchSizeCode w s) cursor cursor []) s
    | none => storeGrant (fetchNext w (startFetch tag w count s) s)

def execFetch (tag : Byte) (body : List Byte) (s : State) : Result :=
  .next (serve 0x31 tag body (fetchAt tag body) s)

/-! ### CLOSE (R134, R135) -/

/-- A CLOSE taken while a fetch is in flight (R135 step 1). -/
def beginClosing (w : WindowId) (f : Fetch) (tag : Byte) (s : State) : State :=
  s.setWindow w { s.window w with
    state := .closing
    closeTag := some ⟨tag, false⟩
    fetch := some { f with endCause := some (f.endCause.getD .close) } }

/-- CLOSE at the fetch engine (R134, R135). -/
def closeAt (tag : Byte) (body : List Byte) (s : State) : State :=
  match windowArg (field body 0 1) with
  | none => refuse tag .badArg 8 (numberField body) s
  | some w =>
    let x := s.window w
    match x.state, x.fetch with
    | .closed, _ => answer tag .ok (zeroFilled 8 [numberByte w.val]) s
    | .closing, _ => refuse tag .busy 8 (numberByte w.val) s
    | .opened, some f => beginClosing w f tag s
    | .opened, none => answer tag .ok (closeBody (numberByte w.val) x.cursor x.pin) (storeGrant (becomeClosed w s))

def execCloseWindow (tag : Byte) (body : List Byte) (s : State) : Result :=
  .next (serve 0x32 tag body (closeAt tag body) s)

/-! ### WINDOW_QUERY (R136) -/

/-- Body of a WINDOW_QUERY reply (11.5, its NOTE 3). -/
def windowQueryBody (w : WindowId) (x : Window) : List Byte :=
  [numberByte w.val, x.state.code, numberByte x.region.val] ++ beBytes 6 x.first ++ beBytes 6 x.last ++ beBytes 6 x.cursor
    ++ [x.pin.code, flagBits [x.fetch.isSome, x.closeTag.isSome],
      (match x.fetch with | some f => f.tag | none => 0)]
    ++ beBytes 2 (match x.fetch with | some f => f.asked | none => 0)
    ++ beBytes 2 (match x.fetch with | some f => f.total | none => 0)
    ++ beBytes 2 (match x.fetch with | some f => f.gathered.length | none => 0)
    ++ [match x.closeTag with | some c => c.tag | none => 0]

/-- WINDOW_QUERY at the fetch engine (R136). -/
def queryWindow (tag : Byte) (body : List Byte) (s : State) : State :=
  match windowArg (field body 0 1) with
  | none => refuse tag .badArg 31 (numberField body) s
  | some w => answer tag .ok (windowQueryBody w (s.window w)) s

def execWindowQuery (tag : Byte) (body : List Byte) (s : State) : Result :=
  .next (serve 0x33 tag body (queryWindow tag body) s)

end Sys2Proof.Machine
end

