-- ==== Sys2Proof/Machine/Dispatch.lean ====
section
/-! DEFINITION. exec: one arm per command, each one direct call of its meaning. -/

namespace Sys2Proof.Machine

def exec (i : Instr) (s : State) : Host.Outcome State Fault Refusal :=
  match i with
  | .hardReset cause rate mode => Sys2Proof.Machine.execHardReset cause rate mode s
  | .sweepStepComplete words => Sys2Proof.Machine.execSweepStepComplete words s
  | .directoryClearComplete => Sys2Proof.Machine.execDirectoryClearComplete s
  | .byteStrobe p data sor mrk => Sys2Proof.Machine.execByteStrobe p data sor mrk s
  | .recordWriteComplete => Sys2Proof.Machine.execRecordWriteComplete s
  | .directoryReadComplete word => Sys2Proof.Machine.execDirectoryReadComplete word s
  | .directoryWriteComplete word => Sys2Proof.Machine.execDirectoryWriteComplete word s
  | .recordReadComplete words => Sys2Proof.Machine.execRecordReadComplete words s
  | .releaseWalkStep => Sys2Proof.Machine.execReleaseWalkStep s
  | .restartWalkBegin => Sys2Proof.Machine.execRestartWalkBegin s
  | .restartWalkStep => Sys2Proof.Machine.execRestartWalkStep s
  | .frameReceived data => Sys2Proof.Machine.execFrameReceived data s
  | .interByteTimeout => Sys2Proof.Machine.execInterByteTimeout s
  | .linkBreak => Sys2Proof.Machine.execLinkBreak s
  | .transmitFrameEnd => Sys2Proof.Machine.execTransmitFrameEnd s
  | .unknownKind kind tag body => Sys2Proof.Machine.execUnknownKind kind tag body s
  | .identify tag body => Sys2Proof.Machine.execIdentify tag body s
  | .status tag body => Sys2Proof.Machine.execStatus tag body s
  | .restart tag body => Sys2Proof.Machine.execRestart tag body s
  | .setPoolNotice tag body => Sys2Proof.Machine.execSetPoolNotice tag body s
  | .retired tag body => Sys2Proof.Machine.execRetired tag body s
  | .define tag body => Sys2Proof.Machine.execDefine tag body s
  | .arm tag body => Sys2Proof.Machine.execArm tag body s
  | .trigger tag body => Sys2Proof.Machine.execTrigger tag body s
  | .stop tag body => Sys2Proof.Machine.execStop tag body s
  | .release tag body => Sys2Proof.Machine.execRelease tag body s
  | .query tag body => Sys2Proof.Machine.execQuery tag body s
  | .setEvents tag body => Sys2Proof.Machine.execSetEvents tag body s
  | .bindPort tag body => Sys2Proof.Machine.execBindPort tag body s
  | .portQuery tag body => Sys2Proof.Machine.execPortQuery tag body s
  | .openWindow tag body => Sys2Proof.Machine.execOpenWindow tag body s
  | .fetch tag body => Sys2Proof.Machine.execFetch tag body s
  | .closeWindow tag body => Sys2Proof.Machine.execCloseWindow tag body s
  | .windowQuery tag body => Sys2Proof.Machine.execWindowQuery tag body s
  | .characterTaken data stopBit => Sys2Proof.Machine.execCharacterTaken data stopBit s

end Sys2Proof.Machine
end

