-- ==== Sys2Proof/Safety.lean ====
section
/-! DEFINITION. The vocabulary of statements about the block, and what a safe state is: the invariants that the chapters of the
spec state of every moment. -/

namespace Sys2Proof

/-- The request that a request command takes, for the eighteen kinds of 11.3. -/
def Instr.request : Instr → Option Machine.Request
  | .identify tag body => some ⟨0x01, tag, body⟩
  | .status tag body => some ⟨0x02, tag, body⟩
  | .restart tag body => some ⟨0x03, tag, body⟩
  | .setPoolNotice tag body => some ⟨0x04, tag, body⟩
  | .retired tag body => some ⟨0x05, tag, body⟩
  | .define tag body => some ⟨0x10, tag, body⟩
  | .arm tag body => some ⟨0x11, tag, body⟩
  | .trigger tag body => some ⟨0x12, tag, body⟩
  | .stop tag body => some ⟨0x13, tag, body⟩
  | .release tag body => some ⟨0x14, tag, body⟩
  | .query tag body => some ⟨0x15, tag, body⟩
  | .setEvents tag body => some ⟨0x16, tag, body⟩
  | .bindPort tag body => some ⟨0x20, tag, body⟩
  | .portQuery tag body => some ⟨0x21, tag, body⟩
  | .openWindow tag body => some ⟨0x30, tag, body⟩
  | .fetch tag body => some ⟨0x31, tag, body⟩
  | .closeWindow tag body => some ⟨0x32, tag, body⟩
  | .windowQuery tag body => some ⟨0x33, tag, body⟩
  | .hardReset _ _ _ => none
  | .sweepStepComplete _ => none
  | .directoryClearComplete => none
  | .byteStrobe _ _ _ _ => none
  | .recordWriteComplete => none
  | .directoryReadComplete _ => none
  | .directoryWriteComplete _ => none
  | .recordReadComplete _ => none
  | .releaseWalkStep => none
  | .restartWalkBegin => none
  | .restartWalkStep => none
  | .frameReceived _ => none
  | .interByteTimeout => none
  | .linkBreak => none
  | .transmitFrameEnd => none
  | .unknownKind _ _ _ => none
  | .characterTaken _ _ => none

end Sys2Proof

namespace Sys2Proof.Machine

/-! ### Requests -/

/-- The request engine can take this request: it is RUNNING and the request is the oldest accepted (R179). -/
def Takes (s : State) (kind tag : Byte) (body : List Byte) (rest : List Request) : Prop :=
  s.link.engine = .running ∧ s.link.requests = ⟨kind, tag, body⟩ :: rest

/-- The request engine can take this request, and the device is not in INIT, where most requests are turned away (R183). -/
def Requested (s : State) (kind tag : Byte) (body : List Byte) (rest : List Request) : Prop :=
  Takes s kind tag body rest ∧ s.device ≠ .init

/-- The state with the oldest request taken from the request queue. -/
def State.taken (s : State) (rest : List Request) : State := s.setLink { s.link with requests := rest }

/-! ### Memory and reports -/

/-- The bytes at an address are these. -/
def Memory.holds (m : List Host.Cell) (a : Nat) (bytes : List Byte) : Prop :=
  ∀ i b, bytes[i]? = some b → Memory.read m (a + i) = b

/-- Outside `n` bytes from an address on, a memory reads as another. -/
def Memory.sameOutside (m before : List Host.Cell) (a n : Nat) : Prop :=
  ∀ x, x < a ∨ a + n ≤ x → Memory.read m x = Memory.read before x

/-- `count` words from `first` on have these conditions, and every other word stands in error as before. -/
def wordErrorsSet (e before : List (Nat × WordOutcome)) (first count : Nat) (condition : Nat → WordOutcome) : Prop :=
  ∀ n, wordError e n = if first ≤ n ∧ n < first + count then condition (n - first) else wordError before n

/-- The words of a sweep step's read-back make the page bad: one reads uncorrectable, or with data other than the pattern
(R16). -/
def sweepBad (page : Nat) (words : List (Nat × WordRead)) : Prop :=
  ∃ i, i < 512 ∧ ((wordReadAt words i).outcome = .uncorrectable ∨
    ∃ data, (wordReadAt words i).escaped = some data ∧ data ≠ Config.sweepPattern page i)

/-- A page swept and not yet judged (R9, R16): it holds its test pattern, the words that read back corrected keep their error
and are counted, and nothing else changes. -/
def sweptPage (s : State) (page : Nat) (words : List (Nat × WordRead)) (t : State) : Prop :=
  Memory.holds t.store.memory (page * 4096) (patternPage page) ∧
  Memory.sameOutside t.store.memory s.store.memory (page * 4096) 4096 ∧
  wordErrorsSet t.store.errors s.store.errors (page * 512) 512
    (fun i => if (wordReadAt words i).outcome = .corrected then .corrected else .clean) ∧
  t = { s with store := { s.store with
    memory := t.store.memory
    errors := t.store.errors
    correctable := min 65535 (s.store.correctable +
      (List.range 512).countP (fun i => decide ((wordReadAt words i).outcome = .corrected))) } }

/-- A bad data page withdrawn by the sweep (R28, R29). -/
def sweptBad (page : Nat) (t : State) : State :=
  { t with alloc :=
      if t.alloc.retiredList.length < 512 then { t.alloc with
        table := tableSet t.alloc.table page .retired
        retiredList := t.alloc.retiredList ++ [⟨page, .sweep, none⟩] }
      else { t.alloc with table := tableSet t.alloc.table page .retired, retiredIncomplete := true } }

/-- A directory page cleared (R15): it reads zero with fresh check bits, and nothing else changes. -/
def clearedPage (s : State) (page : Nat) (t : State) : Prop :=
  (∀ a, page * 4096 ≤ a → a < page * 4096 + 4096 → Memory.read t.store.memory a = 0) ∧
  Memory.sameOutside t.store.memory s.store.memory (page * 4096) 4096 ∧
  wordErrorsSet t.store.errors s.store.errors (page * 512) 512 (fun _ => .clean) ∧
  t = { s with store := { s.store with memory := t.store.memory, errors := t.store.errors } }

/-- A report with this key and payload is pending in the event queue, or its frame is the one being sent. -/
def State.reports (s : State) (key : EventKey) (payload : Payload) : Prop :=
  (∃ e ∈ s.events.entries, e.key = key ∧ e.payload = payload) ∨
  ∃ credit repeated, s.link.transmitting = some ⟨.event, key.kindCode, credit, key.sourceCode,
    eventBody s.link.epoch s.alloc.retiredCount repeated payload⟩

/-! ### Invariants -/

/-- The DRAM's memory and the list of words in error keep their canonical forms. -/
def State.memoryCanonical (s : State) : Prop := Memory.wf s.store.memory ∧ wordErrorsWf s.store.errors

/-- No two pending events have the same key, and so there are at most 91 of them (R155). -/
def State.keysDistinct (s : State) : Prop := (s.events.entries.map (·.key)).Nodup

/-- The fetch-wait count is at most 8, and 0 while no record read waits (R14). -/
def State.fetchWaitBounded (s : State) : Prop :=
  s.store.fetchWait ≤ Config.fetchGuard ∧ ((∀ w, s.store.reads.get w = none) → s.store.fetchWait = 0)

/-- The bound port of a region mirrors the binding of the port (R40, R106). -/
def State.bindingsMirror (s : State) : Prop :=
  ∀ (p : PortId) (r : RegionId), (s.port p).binding = some r ↔ (s.region r).boundPort = some p

/-- No two valid entries of the slot cache hold the same (region, slot) (R85). -/
def Cache.distinct (c : Cache) : Prop :=
  ∀ (i j : Fin 24) (a b : CacheEntry), c.entries.get i = some a → c.entries.get j = some b →
    a.region = b.region → a.slot = b.slot → i = j

/-- Initialization holds the store port only while the store is initializing (R15, R17). -/
def State.sweepOnlyAtStart (s : State) : Prop :=
  ∀ op, s.store.port = some op → (∀ d, op ≠ .directory d) → (∀ p w, op ≠ .recordWrite p w) →
    (∀ w r, op ≠ .recordRead w r) → s.store.condition = .initializing

/-- The page that a walk examines next is a data page (2.8). -/
def Scanner.inRange : Scanner → Prop
  | .idle => True
  | .releaseWalk _ page _ _ _ _ => 16 ≤ page ∧ page < 16384
  | .restartWalk page => 16 ≤ page ∧ page < 16384

/-- Outside initialization each data page is in exactly one place (R19, R21): the pool holds every FREE page once, and no page
that is OWNED or RETIRED. -/
def State.threePlaces (s : State) : Prop :=
  s.sweepOnlyAtStart ∧ s.alloc.scanner.inRange ∧
  (s.store.condition = .serving →
    s.alloc.pool.Nodup ∧
    ∀ page, page ∈ s.alloc.pool ↔ 16 ≤ page ∧ page < 16384 ∧ tableEntry s.alloc.table page = .free)

/-- A region whose pages a release walk returns is RELEASING (R30). -/
def State.walkReleasing (s : State) : Prop :=
  ∀ r page returned retired tag stale, s.alloc.scanner = .releaseWalk r page returned retired tag stale →
    (s.region r).state = .releasing

/-- The reserved total is the sum of the sixteen reservations and at most the pool length, so that Available is never negative
(R22); only a capturing region holds a reservation (R26, R42), and none does while the store is initializing, when the device
is in INIT and no restart walk runs. -/
def State.reservationsSum (s : State) : Prop :=
  s.alloc.reservedTotal = ((List.finRange 16).map s.reservation).sum ∧
  s.alloc.reservedTotal ≤ s.alloc.pool.length ∧
  (∀ r, 0 < s.reservation r → (s.region r).capturing = true) ∧
  s.walkReleasing ∧ s.sweepOnlyAtStart ∧
  (s.store.condition = .initializing →
    s.device = .init ∧ (∀ r, s.reservation r = 0) ∧ ∀ page, s.alloc.scanner ≠ .restartWalk page)

/-- The equation of R104: arrived equals stored plus the four drop counts plus the staged count plus one if a record write is
in flight. -/
def Port.balanced (q : Port) : Prop :=
  q.counts.arrived = q.counts.stored + q.counts.dropIdle + q.counts.dropFull + q.counts.dropShort + q.counts.dropFlush
    + q.staging.length + (if q.inFlight.isSome then 1 else 0)

/-- Every port's counts balance (R104), with what keeps them so: a queue with records belongs to a port that is not halted and
whose region is capturing (R107 step 5, R116, R119); a record write is in flight exactly while it is issued, once (R112), and
never beside a claim (R118); RESTART keeps every port halted, and its walk begins with no write in flight (R119, R191). -/
def State.portAccounts (s : State) : Prop :=
  s.bindingsMirror ∧ s.walkReleasing ∧
  (∀ p, (s.port p).balanced) ∧
  (∀ p, (s.port p).staging ≠ [] → (s.port p).halted = false ∧
    ∃ r, (s.port p).binding = some r ∧ (s.region r).capturing = true) ∧
  (∀ p, (s.port p).inFlight.isSome = true ↔
    (s.store.writes.get p).isSome = true ∨ ∃ w, s.store.port = some (.recordWrite p w)) ∧
  (∀ p w, s.store.port = some (.recordWrite p w) → s.store.writes.get p = none) ∧
  (∀ p, (s.port p).claim ≠ none → (s.port p).inFlight = none) ∧
  (s.device = .restarting → ∀ p, (s.port p).halted = true) ∧
  (∀ page, s.alloc.scanner = .restartWalk page → ∀ p, (s.port p).halted = true ∧ (s.port p).inFlight = none)

/-- The record of a window is coherent (R121): CLOSED, it has no pin, fetch or close tag; OPEN, no close tag and the cursor
within its range; CLOSING, a fetch in flight and a close tag; and a fetch gathers no more than the window has left. -/
def Window.coherent (w : Window) : Prop :=
  (w.state = .closed → w.pin = .none ∧ w.fetch = none ∧ w.closeTag = none) ∧
  (w.state = .opened → w.closeTag = none) ∧
  (w.state = .closing → w.fetch.isSome ∧ w.closeTag.isSome) ∧
  (w.state ≠ .closed → w.first ≤ w.cursor ∧ w.cursor ≤ w.last + 1) ∧
  ∀ f, w.fetch = some f →
    w.cursor + f.gathered.length ≤ w.last ∧ f.gathered.length ≤ f.total ∧ w.cursor + f.total ≤ w.last + 1

/-- Requests taken and not yet answered, those not stale, by where their replies will be made (R175). -/
def State.runningRequests (s : State) : Nat :=
  (List.finRange 4).countP (fun w => match (s.window w).fetch with | some f => !f.stale | none => false)
  + (List.finRange 4).countP (fun w => match (s.window w).closeTag with | some c => !c.stale | none => false)
  + (match s.alloc.scanner with | .releaseWalk _ _ _ _ _ stale => if stale then 0 else 1 | _ => 0)
  + (match s.restart with | some q => if q.stale then 0 else 1 | none => 0)

/-- The outstanding count counts each accepted request once, in the request queue, running or in the reply queue, and is at
most 8 (R174). The engine runs only while no RESTART is being served (10.6), and the window records are coherent. -/
def State.outstandingAccounts (s : State) : Prop :=
  (∀ w, (s.window w).coherent) ∧ (s.link.engine = .running → s.restart = none) ∧
  s.link.outstanding = s.link.requests.length + s.link.replies.length + s.runningRequests ∧
  s.link.outstanding ≤ 8

end Sys2Proof.Machine
end

