-- ==== Sys2Proof/Certificates/Slice0/Obligations.lean ====
section
/-! DEFINITION. The statements for the provers. Each says in its docstring which rules of spec/ it states, or which entry of
notes/assumptions/ a clause rests on. `s` is any state; a statement about a request command holds for every tag. -/

open Sys2Proof Sys2Proof.Machine

/-! ### Steps and commands -/

/-- A step takes the command at the front of the queue and is `exec` of it with the queue's rest (the model's form of
"each whole and indivisible", spec/95; notes/assumptions/19.md); with no command waiting the block idles, the model's choice of
notes/assumptions/1.md. -/
def Obligations.StepRunsTheFrontCommand : Prop :=
  (∀ (s : State) (c : Instr) (rest : List Instr), s.pending = c :: rest → step s = exec c { s with pending := rest }) ∧
  ∀ s : State, s.pending = [] → step s = .next s

/-- Every command completes, but for a completion of a store operation that addresses no page of the store
(notes/assumptions/23.md). No command touches the queue of waiting commands, a hard reset neither, which is the model's choice
(notes/assumptions/14.md), and the counter of free draws moves at a hard reset only (notes/assumptions/7.md). -/
def Obligations.CommandsComplete : Prop :=
  (∀ (c : Instr) (s : State),
    (∃ t, exec c s = .next t) ∨
    (exec c s = .fault .outsideStore ∧ ∃ op, s.store.port = some op ∧ op.inStore = false)) ∧
  ∀ (c : Instr) (s t : State), exec c s = .next t →
    t.pending = s.pending ∧ ((∀ cause rate mode, c ≠ .hardReset cause rate mode) → t.freeCount = s.freeCount)

/-- The model's choice, notes/assumptions/2.md and 3.md: a command whose event cannot occur in the state changes nothing: a
completion with no operation of its kind on the port, a walk step with the scanner not in that walk, RESTART_WALK_BEGIN unless
the device is RESTARTING with scanner and store idle, a timeout in HUNT, the end of no frame, a request the engine cannot take. -/
def Obligations.ImpossibleEventsChangeNothing : Prop :=
  ∀ s : State,
    let storeIdle := s.store.port = none ∧ s.store.directoryOps = [] ∧ (∀ p, s.store.writes.get p = none) ∧
      ∀ w, s.store.reads.get w = none
    ((∀ page, s.store.port ≠ some (.sweepStep page)) → ∀ words, exec (.sweepStepComplete words) s = .next s) ∧
    ((∀ page, s.store.port ≠ some (.directoryClear page)) → exec .directoryClearComplete s = .next s) ∧
    ((∀ p op, s.store.port ≠ some (.recordWrite p op)) → exec .recordWriteComplete s = .next s) ∧
    ((∀ r slot who, s.store.port ≠ some (.directory (.read r slot who))) →
      ∀ word, exec (.directoryReadComplete word) s = .next s) ∧
    ((∀ r slot page p, s.store.port ≠ some (.directory (.write r slot page p))) →
      ∀ word, exec (.directoryWriteComplete word) s = .next s) ∧
    ((∀ w op, s.store.port ≠ some (.recordRead w op)) → ∀ words, exec (.recordReadComplete words) s = .next s) ∧
    ((∀ r page n m tag stale, s.alloc.scanner ≠ .releaseWalk r page n m tag stale) → exec .releaseWalkStep s = .next s) ∧
    ((∀ page, s.alloc.scanner ≠ .restartWalk page) → exec .restartWalkStep s = .next s) ∧
    (s.device ≠ .restarting ∨ s.alloc.scanner ≠ .idle ∨ ¬storeIdle → exec .restartWalkBegin s = .next s) ∧
    (s.link.kept = [] → exec .interByteTimeout s = .next s) ∧
    (s.link.transmitting = none → exec .transmitFrameEnd s = .next s) ∧
    (∀ c q, c.request = some q → (s.link.engine = .held ∨ s.link.requests.head? ≠ some q) → exec c s = .next s) ∧
    (∀ kind tag body, (s.link.engine = .held ∨ s.link.requests.head? ≠ some ⟨kind, tag, body⟩) →
      exec (.unknownKind kind tag body) s = .next s)

/-! ### Reset and initialization -/

/-- The machine right after reset holds the reset values of chapters 1 to 12. The straps it was reset with are the model's
choice (notes/assumptions/9.md), and so are the empty memory's reading (8.md), that no word stands in error (4.md) and the
empty queue. -/
def Obligations.ResetValues : Prop :=
  let s := State.reset
  s.pending = [] ∧ s.device = .init ∧ s.restart = none ∧
  s.link.kept = [] ∧ s.link.state = .quiet ∧ s.link.epoch = 0 ∧ s.link.requests = [] ∧ s.link.replies = [] ∧
  s.link.outstanding = 0 ∧ s.link.transmitting = none ∧ s.link.runCount = 0 ∧ s.link.engine = .running ∧
  s.events.entries = [] ∧ s.events.readyCause = .power ∧
  s.store.condition = .initializing ∧ s.store.initProgress = 0 ∧ s.store.directoryOps = [] ∧
  s.store.portPointer = 3 ∧ s.store.windowPointer = 3 ∧ s.store.fetchWait = 0 ∧ s.store.correctable = 0 ∧
  s.store.memory = [] ∧ s.store.errors = [] ∧ s.alloc.table = [] ∧ s.alloc.pool = [] ∧ s.alloc.reservedTotal = 0 ∧ s.alloc.retiredList = [] ∧
  s.alloc.retiredIncomplete = false ∧ s.alloc.scanner = .idle ∧ s.alloc.threshold = 256 ∧ s.alloc.armed = true ∧
  s.cache.victim = 0 ∧ s.cache.hits = 0 ∧ s.cache.misses = 0 ∧ (∀ i, s.cache.entries.get i = none) ∧
  (∀ r, s.region r = Region.reset ∧ s.reservation r = 0 ∧ s.owned r = 0) ∧
  (∀ p, s.port p = Port.reset ∧ s.store.writes.get p = none) ∧
  (∀ w, s.window w = Window.reset ∧ s.store.reads.get w = none)

/-- A hard reset (R190) from any state: every block takes its hard-reset values (R18, R39, R67, R98, R120, R143, R165, R180),
the straps are sampled (R15, R167), the ready cause is POWER or PIN (R163), and the store begins to initialize with the page
its INITMODE begins with. A byte outside the operation that was abandoned is as left, and so is the error that stands in a word
outside it (R18; over power-on that is the model's choice, notes/assumptions/4.md, 8.md). -/
def Obligations.HardResetTakesResetValues : Prop :=
  ∀ (s : State) (cause : ResetCause) (rate : BitVec 2) (mode : InitMode),
    ∃ t, exec (.hardReset cause rate mode) s = .next t ∧
      t.device = .init ∧ t.restart = none ∧
      t.link = { lineRate := lineRateOf rate, kept := [], state := .quiet, epoch := 0, requests := [], replies := [],
                 outstanding := 0, transmitting := none, runCount := 0, engine := .running } ∧
      t.events.entries = [] ∧ t.events.readyCause = (match cause with | .powerOn => .power | .rstN => .pin) ∧
      t.store.condition = .initializing ∧ t.store.initMode = mode ∧ t.store.initProgress = 0 ∧
      t.store.port = some (match mode with | .sweep => .sweepStep 0 | .quick => .directoryClear 0) ∧
      t.store.directoryOps = [] ∧ t.store.portPointer = 3 ∧ t.store.windowPointer = 3 ∧ t.store.fetchWait = 0 ∧
      t.store.correctable = 0 ∧
      (∀ page, tableEntry t.alloc.table page = .free) ∧ t.alloc.pool = [] ∧ t.alloc.reservedTotal = 0 ∧
      t.alloc.retiredList = [] ∧ t.alloc.retiredIncomplete = false ∧ t.alloc.scanner = .idle ∧
      t.alloc.threshold = 256 ∧ t.alloc.armed = true ∧
      t.cache.victim = 0 ∧ t.cache.hits = 0 ∧ t.cache.misses = 0 ∧ (∀ i, t.cache.entries.get i = none) ∧
      (∀ r, t.reservation r = 0 ∧ t.owned r = 0 ∧
        t.region r = { state := .unused, params := none, eventMask := 0, committed := 0, trigger := none,
                       stopCause := none, rollingCount := 0, wrapLength := none, oldest := 0, faultPage := none,
                       boundPort := none, suspect := false }) ∧
      (∀ p, t.store.writes.get p = none ∧
        t.port p = { binding := none, markerEnable := false, overrunEnable := false, halted := false, assembly := none,
                     staging := [], counts := ⟨0, 0, 0, 0, 0, 0⟩, writer := .idle, fillPage := none, claim := none,
                     inFlight := none }) ∧
      (∀ w, t.store.reads.get w = none ∧
        t.window w = { state := .closed, region := 0, first := 0, last := 0, cursor := 0, pin := .none, fetch := none,
                       closeTag := none }) ∧
      (∀ a, (∀ op, s.store.port = some op → a < op.writeSpan.1 ∨ op.writeSpan.1 + op.writeSpan.2 ≤ a) →
        Memory.read t.store.memory a = Memory.read s.store.memory a) ∧
      ∀ n, (∀ op, s.store.port = some op →
          n < op.writeSpan.1 / 8 ∨ op.writeSpan.1 / 8 + op.writeSpan.2 / 8 ≤ n) →
        wordError t.store.errors n = wordError s.store.errors n

/-- A sweep step that is not the last (R16, R28, R29, R41): the page holds its test pattern and is read back (`sweptPage`), a
directory page's region takes the verdict as its directory-suspect flag, a bad data page is retired with origin SWEEP, the next
page's step begins, and nothing else changes. -/
def Obligations.SweepStepJudgesThePage : Prop :=
  ∀ (s : State) (words : List (Nat × WordRead)) (page : Nat), s.store.port = some (.sweepStep page) → page + 1 < 16384 →
    let step := exec (.sweepStepComplete words) s
    ∃ swept, sweptPage s page words swept ∧
      let u := { swept with store := { swept.store with initProgress := page + 1, port := some (.sweepStep (page + 1)) } }
      (∀ r : RegionId, r.val = page → sweepBad page words → step = .next (u.setRegion r { s.region r with suspect := true })) ∧
      (∀ r : RegionId, r.val = page → ¬sweepBad page words →
        step = .next (u.setRegion r { s.region r with suspect := false })) ∧
      (16 ≤ page → ¬sweepBad page words → step = .next u) ∧
      (16 ≤ page → sweepBad page words → step = .next (sweptBad page u))

/-- A directory clear that is not the last (R15): the page reads zero with fresh check bits (`clearedPage`), the next page's
clear begins, and nothing else changes. -/
def Obligations.DirectoryClearZeroesThePage : Prop :=
  ∀ (s : State) (page : Nat), s.store.port = some (.directoryClear page) → page + 1 < 16 →
    ∃ cleared, clearedPage s page cleared ∧ exec .directoryClearComplete s = .next { cleared with
      store := { cleared.store with initProgress := page + 1, port := some (.directoryClear (page + 1)) } }

/-- The last sweep step, with the judgement of page 16383, or the last directory clear completes initialization (R15 to R17,
R28, R29, R190): the store serves with its port free, the pool holds every FREE data page in ascending order with reserved total
0, the device is in RUN, and READY is raised with the ready cause; then the pool notice is evaluated (R38), so that a POOL_LOW
stands behind READY; nothing else changes. -/
def Obligations.InitializationCompletes : Prop :=
  (∀ (s : State) (words : List (Nat × WordRead)), s.store.port = some (.sweepStep 16383) →
    ∃ swept, sweptPage s 16383 words swept ∧
      (¬sweepBad 16383 words → exec (.sweepStepComplete words) s = .next (completeInitialization swept)) ∧
      (sweepBad 16383 words → exec (.sweepStepComplete words) s = .next (completeInitialization (sweptBad 16383 swept)))) ∧
  (∀ s : State, s.store.port = some (.directoryClear 15) →
    ∃ cleared, clearedPage s 15 cleared ∧ exec .directoryClearComplete s = .next (completeInitialization cleared)) ∧
  ∀ s : State,
    let t := completeInitialization s
    t = evaluateNotice (raiseEvent .ready (.ready s.events.readyCause) { s with
      device := .run
      store := { s.store with
        condition := .serving, initProgress := 16384, port := none, directoryOps := [], portPointer := 3, windowPointer := 3,
        fetchWait := 0 }
      alloc := { s.alloc with
        pool := (List.range' 16 16368).filter (fun page => decide (tableEntry s.alloc.table page = .free)), reservedTotal := 0 } }) ∧
    t.store = { s.store with
      condition := .serving, initProgress := 16384, port := none, directoryOps := [], portPointer := 3, windowPointer := 3,
      fetchWait := 0 } ∧
    t.alloc.pool = (List.range' 16 16368).filter (fun page => decide (tableEntry s.alloc.table page = .free)) ∧
    t.alloc.table = s.alloc.table ∧ t.alloc.retiredList = s.alloc.retiredList ∧
    t.alloc.retiredIncomplete = s.alloc.retiredIncomplete ∧ t.alloc.threshold = s.alloc.threshold ∧
    t.alloc.scanner = s.alloc.scanner ∧ (∀ r, t.reservation r = s.reservation r ∧ t.owned r = s.owned r) ∧
    t.alloc.reservedTotal = 0 ∧ t.device = .run ∧ t.restart = s.restart ∧
    t.reports .ready (.ready s.events.readyCause) ∧
    (t.alloc.armed = true → t.alloc.threshold ≤ t.alloc.available) ∧
    t.regions = s.regions ∧ t.ports = s.ports ∧ t.windows = s.windows ∧ t.cache = s.cache

/-! ### The event queue, the outbound arbiter and the reply queue -/

/-- A raise (R158): nothing under the mask of the source region; else a pending entry of the key takes the payload and the
repeated flag in its place; else an entry is appended with repeated clear. The arbiter then decides (R178). The first clauses
say which bit of which region's mask names a key (R66, R182). -/
def Obligations.RaiseTakesTheFirstCase : Prop :=
  ∀ (s : State) (key : EventKey) (payload : Payload),
    (∀ r, masked s (.triggered r) = (s.region r).eventMask.getLsbD 0 ∧ masked s (.stopped r) = (s.region r).eventMask.getLsbD 1 ∧
      masked s (.mark r) = (s.region r).eventMask.getLsbD 2 ∧ masked s (.starved r) = (s.region r).eventMask.getLsbD 3 ∧
      masked s (.mediaError r) = (s.region r).eventMask.getLsbD 4) ∧
    masked s .ready = false ∧ masked s .linkError = false ∧ masked s .poolLow = false ∧
    (∀ w, masked s (.pinBroken w) = false) ∧ (∀ p, masked s (.overrun p) = false) ∧
    (masked s key = true → raiseEvent key payload s = s) ∧
    (masked s key = false → ∀ before e after, s.events.entries = before ++ e :: after → e.key = key →
      (∀ x ∈ before ++ after, x.key ≠ key) →
      raiseEvent key payload s =
        arbitrate { s with events := { s.events with entries := before ++ ⟨key, payload, true⟩ :: after } }) ∧
    (masked s key = false → (∀ e ∈ s.events.entries, e.key ≠ key) →
      raiseEvent key payload s =
        arbitrate { s with events := { s.events with entries := s.events.entries ++ [⟨key, payload, false⟩] } })

/-- The outbound arbiter's table (R178) with what the start of a frame does (R177, R160), for a transmitter that is free and a
link that is ACTIVE; nothing starts otherwise. The end of a frame frees the transmitter for the next decision. A reply made
(R175, R176) is discarded where its request is stale, and else joins the tail of the reply queue, where the arbiter decides; that
it decides at each reply made is the model's choice (notes/assumptions/11.md). -/
def Obligations.ArbiterStartsTheFrame : Prop :=
  ∀ s : State,
    (s.link.transmitting.isSome = true ∨ s.link.state = .quiet → arbitrate s = s) ∧
    (s.link.replies = [] → s.events.entries = [] → arbitrate s = s) ∧
    (s.link.transmitting = none → s.link.state = .active →
      (∀ r rs, s.link.replies = r :: rs → s.events.entries = [] ∨ s.link.runCount < 4 →
        arbitrate s = { s with link := { s.link with
          replies := rs, outstanding := s.link.outstanding - 1, runCount := min 4 (s.link.runCount + 1),
          transmitting := some ⟨.reply, r.tag, BitVec.ofNat 8 (8 - (s.link.outstanding - 1)), r.status.code, r.body⟩ } }) ∧
      (∀ e es, s.events.entries = e :: es → s.link.replies = [] ∨ 4 ≤ s.link.runCount →
        arbitrate s = { s with
          events := { s.events with entries := es }
          link := { s.link with
            runCount := 0
            transmitting := some ⟨.event, e.key.kindCode, BitVec.ofNat 8 (8 - s.link.outstanding), e.key.sourceCode,
              eventBody s.link.epoch s.alloc.retiredCount e.repeated e.payload⟩ } })) ∧
    (∀ tag status body, makeReply tag true status body s = s ∧ makeReply tag false status body s =
      arbitrate { s with link := { s.link with replies := s.link.replies ++ [⟨tag, status, body⟩] } }) ∧
    (∀ f, s.link.transmitting = some f →
      exec .transmitFrameEnd s = .next (arbitrate { s with link := { s.link with transmitting := none } }))

/-- The bytes of an outbound frame (R181), and the body of each event (R185): its length, its flags byte, and READY's fields
taken at the frame start (R160); the KIND and SOURCE of events (R181, R185), the codes of named values (R182), the status codes
(R187) and the rate the straps select (R167). The check (R169) is the remainder taken bit by bit, each byte most significant bit
first, from 0xFFFF, with 0x1021 the polynomial and no final inversion. -/
def Obligations.FrameLayouts : Prop :=
  (∀ bytes : List Byte, frameCheck bytes =
    (bytes.flatMap (fun b => [7, 6, 5, 4, 3, 2, 1, 0].map (fun i => b.getLsbD i))).foldl
      (fun (crc : BitVec 16) bit => if crc.msb ≠ bit then (crc <<< 1) ^^^ 0x1021 else crc <<< 1) 0xFFFF) ∧
  (∀ f : OutFrame, ∃ check, f.lineBytes =
    [0xA5] ++ (beBytes 2 (4 + f.body.length) ++ [if f.type = .reply then 0x01 else 0x02, f.tagOrKind, f.credit, f.statusOrSource]
      ++ f.body) ++ check ∧ check = beBytes 2 (frameCheck (f.lineBytes.tail.dropLast.dropLast)).toNat) ∧
  (∀ (r : RegionId) (w : WindowId) (p : PortId),
    [EventKey.ready, .linkError, .poolLow, .triggered r, .stopped r, .mark r, .starved r, .mediaError r, .pinBroken w,
      .overrun p].map (fun key => (key.kindCode, key.sourceCode.toNat)) =
    [(0x80, 255), (0x81, 255), (0x82, 255), (0x83, r.val), (0x84, r.val), (0x85, r.val), (0x86, r.val), (0x87, r.val),
      (0x88, w.val), (0x89, p.val)]) ∧
  [RegionState.unused, .idle, .armed, .triggered, .stopped, .faulted, .releasing].map RegionState.code =
    [0x00, 0x01, 0x02, 0x03, 0x04, 0x05, 0x06] ∧
  [DeviceState.init, .run, .restarting].map DeviceState.code = [0x00, 0x01, 0x02] ∧
  [PinPolicy.holdWriter, .breakPin].map PinPolicy.code = [0x00, 0x01] ∧
  [Pin.none, .standing, .broken].map Pin.code = [0x00, 0x01, 0x02] ∧
  [WindowState.closed, .opened, .closing].map WindowState.code = [0x00, 0x01, 0x02] ∧
  [WriterCondition.idle, .running, .starved].map WriterCondition.code = [0x00, 0x01, 0x02] ∧
  [none, some ClaimStage.directoryWrite, some .directoryRead, some .pinHold].map claimStageCode = [0x00, 0x01, 0x02, 0x03] ∧
  [none, some StopCause.postCount, some .host, some .limit, some .fault].map stopCauseCode = [0x00, 0x01, 0x02, 0x03, 0x04] ∧
  [TriggerSource.host, .marker].map TriggerSource.code = [0x00, 0x01] ∧
  [ReadyCause.power, .pin, .restart, .link].map ReadyCause.code = [0x00, 0x01, 0x02, 0x03] ∧
  [LinkErrorCause.badCheck, .badLength, .truncated, .credit].map LinkErrorCause.code = [0x00, 0x01, 0x02, 0x03] ∧
  [MediaErrorKind.record, .directory].map MediaErrorKind.code = [0x00, 0x01] ∧
  [RetireOrigin.sweep, .release, .restart].map RetireOrigin.code = [0x00, 0x01, 0x02] ∧
  [Status.ok, .atEnd, .notYet, .expired, .badState, .badArg, .noPages, .busy, .mediaError, .faulted, .closed, .aborted,
    .notReady, .unknownKind, .badLength].map Status.code =
    [0x00, 0x01, 0x02, 0x03, 0x10, 0x11, 0x12, 0x13, 0x14, 0x15, 0x16, 0x17, 0x18, 0x19, 0x1A] ∧
  [(0 : BitVec 2), 1, 2, 3].map lineRateOf = [.mbit2, .mbit6, .mbit12, .mbit24] ∧
  ∀ (epoch : Byte) (count : Nat) (again : Bool),
    let bit : Byte := if again then 1 else 0
    (∀ c, eventBody epoch count again (.ready c) = [bit, c.code, epoch] ++ beBytes 2 count) ∧
    (∀ c t, eventBody epoch count again (.linkError c (some t)) = [bit + 2, c.code, t]) ∧
    (∀ c, eventBody epoch count again (.linkError c none) = [bit, c.code, 0]) ∧
    (∀ a b c, eventBody epoch count again (.poolLow a b c) = [bit] ++ beBytes 2 a ++ beBytes 2 b ++ beBytes 2 c) ∧
    (∀ k src, eventBody epoch count again (.triggered k src) = [bit] ++ beBytes 6 k ++ [src.code]) ∧
    (∀ c n k, eventBody epoch count again (.stopped c n (some k)) =
      [bit + 2, stopCauseCode c] ++ beBytes 6 n ++ beBytes 6 k) ∧
    (∀ c n, eventBody epoch count again (.stopped c n none) =
      [bit, stopCauseCode c] ++ beBytes 6 n ++ [0, 0, 0, 0, 0, 0]) ∧
    (∀ n, eventBody epoch count again (.mark n) = [bit] ++ beBytes 6 n) ∧
    (∀ k ws, ∃ b : Byte, eventBody epoch count again (.starved k ws) = [bit] ++ beBytes 6 k ++ [b] ∧
      (∀ w : WindowId, b.getLsbD w.val = decide (w ∈ ws)) ∧ ∀ i, 4 ≤ i → b.getLsbD i = false) ∧
    (∀ page kind k, eventBody epoch count again (.mediaError page kind (some k)) =
      [bit + 2] ++ beBytes 2 page ++ [kind.code] ++ beBytes 6 k) ∧
    (∀ page kind, eventBody epoch count again (.mediaError page kind none) =
      [bit] ++ beBytes 2 page ++ [kind.code, 0, 0, 0, 0, 0, 0]) ∧
    (∀ r k, eventBody epoch count again (.pinBroken r k) = [bit, BitVec.ofNat 8 r.val] ++ beBytes 6 k) ∧
    (∀ n, eventBody epoch count again (.overrun n) = [bit] ++ beBytes 4 n)

/-! ### The store arbiter, the slot cache and the page allocator -/

/-- The grant decision (R12 to R14), which changes nothing but the store, with the port free and the store serving: the head of the directory queue, else a record
write, else a record read, the ports and the windows taken round-robin from the one after their pointer; at a fetch-wait
count of 8 a waiting record read goes first. The count rises at a grant to the first two classes while a read waits. -/
def Obligations.StoreGrantsInOrder : Prop :=
  (∀ s : State, storeGrant s = { s with store := s.store.grant }) ∧
  ∀ st : Store,
    let noReads := ∀ w, st.reads.get w = none
    let noWrites := ∀ p, st.writes.get p = none
    (st.port.isSome = true ∨ st.condition = .initializing → st.grant = st) ∧
    (st.directoryOps = [] → noWrites → noReads → st.grant = st) ∧
    (st.port = none → st.condition = .serving →
      (∀ op rest, st.directoryOps = op :: rest → noReads → st.grant =
        { st with port := some (.directory op), directoryOps := rest }) ∧
      (∀ op rest, st.directoryOps = op :: rest → ¬noReads → st.fetchWait < 8 → st.grant =
        { st with port := some (.directory op), directoryOps := rest, fetchWait := st.fetchWait + 1 }) ∧
      (∀ p op, st.directoryOps = [] → st.writes.get p = some op →
        (∀ q, st.writes.get q ≠ none → p - (st.portPointer + 1) ≤ q - (st.portPointer + 1)) →
        (noReads → st.grant = { st with
          port := some (.recordWrite p op), writes := st.writes.set p.val none p.isLt, portPointer := p }) ∧
        (¬noReads → st.fetchWait < 8 → st.grant = { st with
          port := some (.recordWrite p op), writes := st.writes.set p.val none p.isLt, portPointer := p,
          fetchWait := st.fetchWait + 1 })) ∧
      (∀ w op, st.reads.get w = some op →
        (∀ q, st.reads.get q ≠ none → w - (st.windowPointer + 1) ≤ q - (st.windowPointer + 1)) →
        8 ≤ st.fetchWait ∨ (st.directoryOps = [] ∧ noWrites) →
        st.grant = { st with
          port := some (.recordRead w op), reads := st.reads.set w.val none w.isLt, windowPointer := w, fetchWait := 0 }))

/-- A lookup hits or misses (R87, R88), and an install takes the lowest-numbered invalid entry, or the entry the victim
pointer names, which then steps (R86, R90). A write-update (R92) does nothing in FAULTED, else replaces the page of the valid
entry of its pair in place, else installs. -/
def Obligations.CacheLookupAndInstall : Prop :=
  ∀ (s : State) (r : RegionId) (slot : Nat) (who : Requester), s.cache.distinct →
    (∀ i e, s.cache.entries.get i = some e → e.region = r → e.slot = slot →
      lookupSlot r slot who s = (some e.page, { s with cache := { s.cache with
        hits := min 4294967295 (s.cache.hits + 1)
        victim := if i = s.cache.victim then s.cache.victim + 1 else s.cache.victim } })) ∧
    ((∀ i e, s.cache.entries.get i = some e → ¬(e.region = r ∧ e.slot = slot)) →
      lookupSlot r slot who s = (none, { s with
        cache := { s.cache with misses := min 4294967295 (s.cache.misses + 1) }
        store := { s.store with directoryOps := s.store.directoryOps ++ [.read r slot who] } })) ∧
    (∀ e i, s.cache.entries.get i = none → (∀ j, j < i → s.cache.entries.get j ≠ none) →
      s.cache.install e = { s.cache with entries := s.cache.entries.set i.val (some e) i.isLt }) ∧
    (∀ e, (∀ i, s.cache.entries.get i ≠ none) → s.cache.install e = { s.cache with
      entries := s.cache.entries.set s.cache.victim.val (some e) s.cache.victim.isLt, victim := s.cache.victim + 1 }) ∧
    (∀ page, (s.region r).state = .faulted → writeUpdate r slot page s = s) ∧
    (∀ page i e, (s.region r).state ≠ .faulted → s.cache.entries.get i = some e → e.region = r → e.slot = slot →
      writeUpdate r slot page s = { s with cache := { s.cache with
        entries := s.cache.entries.set i.val (some ⟨r, slot, page⟩) i.isLt } }) ∧
    (∀ page, (s.region r).state ≠ .faulted →
      (∀ i e, s.cache.entries.get i = some e → ¬(e.region = r ∧ e.slot = slot)) →
      writeUpdate r slot page s = { s with cache := s.cache.install ⟨r, slot, page⟩ })

/-- A claim (R24) takes the head of the pool, against the region's reservation where it holds one, and is refused where it
holds none and Available is 0. The pool notice is then evaluated (R36), and nothing else changes: no other region's reservation
or count, no pending event. -/
def Obligations.ClaimTakesThePoolHead : Prop :=
  ∀ (s : State) (r : RegionId),
    (∀ page rest, s.alloc.pool = page :: rest →
      let taken := { s with alloc := { s.alloc with
        pool := rest, table := tableSet s.alloc.table page (.owned r false)
        ownedPages := s.alloc.ownedPages.set r.val (s.owned r + 1) r.isLt } }
      (0 < s.reservation r → claimPage r s = some (page, evaluateNotice { taken with alloc := { taken.alloc with
        reservations := s.alloc.reservations.set r.val (s.reservation r - 1) r.isLt
        reservedTotal := s.alloc.reservedTotal - 1 } })) ∧
      (s.reservation r = 0 → 1 ≤ s.alloc.available → claimPage r s = some (page, evaluateNotice taken))) ∧
    (∀ page rest, s.alloc.pool = page :: rest → 0 < s.reservation r ∨ 1 ≤ s.alloc.available →
      ∃ t, claimPage r s = some (page, t) ∧ t.alloc.pool = rest ∧
        (∀ q, tableEntry t.alloc.table q = if q = page then .owned r false else tableEntry s.alloc.table q) ∧
        t.owned r = s.owned r + 1 ∧ t.reservation r = s.reservation r - 1 ∧
        (∀ q, q ≠ r → t.owned q = s.owned q ∧ t.reservation q = s.reservation q) ∧
        t.alloc.reservedTotal = (if 0 < s.reservation r then s.alloc.reservedTotal - 1 else s.alloc.reservedTotal) ∧
        t.alloc.retiredList = s.alloc.retiredList ∧ t.alloc.scanner = s.alloc.scanner ∧ t.regions = s.regions ∧
        t.ports = s.ports ∧ t.windows = s.windows ∧ t.store = s.store ∧ t.cache = s.cache) ∧
    (s.reservation r = 0 → s.alloc.available = 0 → claimPage r s = none)

/-- The evaluation of the pool notice (R36, R38): held outside RUN, and the four rows of its table in RUN. -/
def Obligations.PoolNoticeEvaluates : Prop :=
  ∀ s : State,
    (s.device ≠ .run → evaluateNotice s = s) ∧
    (s.device = .run → s.alloc.armed = true → s.alloc.available < s.alloc.threshold →
      evaluateNotice s = raiseEvent .poolLow (.poolLow s.alloc.available s.alloc.reservedTotal s.alloc.threshold)
        { s with alloc := { s.alloc with armed := false } }) ∧
    (s.alloc.armed = true → s.alloc.threshold ≤ s.alloc.available → evaluateNotice s = s) ∧
    (s.alloc.armed = false → s.alloc.available < s.alloc.threshold → evaluateNotice s = s) ∧
    (s.device = .run → s.alloc.armed = false → s.alloc.threshold ≤ s.alloc.available →
      evaluateNotice s = { s with alloc := { s.alloc with armed := true } })

/-! ### Capture ports and writers -/

/-- A byte at a port bound to no region (R101): with CPn_SOR it is a record that arrives and is dropped IDLE; without, nothing
changes. -/
def Obligations.UnboundPortDropsIdle : Prop :=
  ∀ (s : State) (p : PortId) (data : Byte) (mrk : Bool), (s.port p).binding = none →
    exec (.byteStrobe p data true mrk) s = .next (s.setPort p { s.port p with counts := { (s.port p).counts with
      arrived := (s.port p).counts.arrived + 1, dropIdle := (s.port p).counts.dropIdle + 1 } }) ∧
    exec (.byteStrobe p data false mrk) s = .next s

/-- Record assembly at a bound port (R100), for every byte but the last of a record; the assembly size is the rec_size of the
region when the record starts (R99). -/
def Obligations.BytesAssembleRecords : Prop :=
  ∀ (s : State) (p : PortId) (data : Byte) (mrk : Bool) (r : RegionId) (ps : Params), (s.port p).binding = some r →
    (s.region r).params = some ps →
    let q := s.port p
    let started : Assembly := { bytes := [data], marker := mrk, size := 2 ^ ps.sizeCode }
    (q.assembly = none →
      exec (.byteStrobe p data true mrk) s = .next (s.setPort p { q with assembly := some started }) ∧
      exec (.byteStrobe p data false mrk) s = .next s) ∧
    (∀ a, q.assembly = some a →
      exec (.byteStrobe p data true mrk) s = .next (s.setPort p { q with
        assembly := some started
        counts := { q.counts with arrived := q.counts.arrived + 1, dropShort := q.counts.dropShort + 1 } }) ∧
      (a.bytes.length + 1 < a.size →
        exec (.byteStrobe p data false mrk) s = .next (s.setPort p { q with
          assembly := some { a with bytes := a.bytes ++ [data] } })))

/-- The fate of a record at the byte that completes it (R102, R103, R105): dropped IDLE, dropped FULL with OVERRUN while the
notice is enabled, or staged at the tail, where a RUNNING writer takes the head of a queue that was empty (R110) and the store
port grants what it issues (R12). -/
def Obligations.ArrivedRecordsAreDroppedOrStaged : Prop :=
  ∀ (s : State) (p : PortId) (data : Byte) (mrk : Bool) (r : RegionId) (a : Assembly),
    (s.port p).binding = some r → (s.port p).assembly = some a → a.bytes.length + 1 = a.size →
    let q := s.port p
    let g := s.region r
    let record : StagedRecord := { bytes := a.bytes ++ [data], marker := a.marker }
    let idle := q.halted = true ∨ g.capturing = false ∨ a.size ≠ g.recSize
    (idle → exec (.byteStrobe p data false mrk) s = .next (s.setPort p { q with
      assembly := none
      counts := { q.counts with arrived := q.counts.arrived + 1, dropIdle := q.counts.dropIdle + 1 } })) ∧
    (¬idle → 8 ≤ q.staging.length →
      let t := s.setPort p { q with
        assembly := none
        counts := { q.counts with arrived := q.counts.arrived + 1, dropFull := q.counts.dropFull + 1 } }
      exec (.byteStrobe p data false mrk) s = .next (if q.overrunEnable then
        raiseEvent (.overrun p) (.overrun (min 4294967295 (q.counts.dropFull + 1))) t else t)) ∧
    (¬idle → q.staging.length < 8 →
      let t := s.setPort p { q with
        assembly := none, staging := q.staging ++ [record]
        counts := { q.counts with arrived := q.counts.arrived + 1 } }
      exec (.byteStrobe p data false mrk) s = .next (if q.staging = [] then storeGrant (takeHead p t) else t))

/-- The issue of a record write (R111): the head record leaves the staging queue, is in flight at the seq committed, and waits
at the arbiter at offset (k mod rpp) × rec_size of the page; a marker is reported while the port's marker enable is set, and
triggers an ARMED region (R50). -/
def Obligations.RecordWriteIsIssued : Prop :=
  ∀ (s : State) (p : PortId) (r : RegionId) (page : Nat) (record : StagedRecord) (rest : List StagedRecord) (ps : Params),
    (s.port p).staging = record :: rest → (s.region r).params = some ps →
    let k := (s.region r).committed
    let size := 2 ^ ps.sizeCode
    let t := s.setPort p { s.port p with staging := rest, inFlight := some k }
    let u := { t with store := { t.store with
      writes := t.store.writes.set p.val
        (some { region := r, page := page, offset := k % (4096 / size) * size, bytes := record.bytes }) p.isLt } }
    let marker := record.marker = true ∧ (s.port p).markerEnable = true ∧ (s.region r).state = .armed
    (marker → issueRecordWrite p r page s = raiseEvent (.triggered r) (.triggered k .marker)
      (u.setRegion r { s.region r with state := .triggered, trigger := some ⟨k, .marker⟩ })) ∧
    (¬marker → issueRecordWrite p r page s = u)

/-- What a RUNNING writer does with its head record when no write is in flight and no claim is in progress (R110, R73 to R77,
R113): inside a logical page it issues the record write into the fill page; at the first record of logical page L it claims a
fresh page, or recycles the page of logical page L - W, the wrap length W taking the value n at the first recycle. Otherwise
the writer does nothing. -/
def Obligations.WriterTakesTheHeadRecord : Prop :=
  ∀ (s : State) (p : PortId) (r : RegionId), (s.port p).binding = some r →
    let q := s.port p
    let g := s.region r
    let l := g.committed / g.rpp
    let ready := q.writer = .running ∧ q.staging ≠ [] ∧ q.inFlight = none ∧ q.claim = none
    let fresh := l < g.anchor ∨ (g.wrapLength = none ∧ g.rollingCount < g.quota - g.anchor)
    (¬ready → takeHead p s = s) ∧
    (ready → g.committed % g.rpp ≠ 0 → ∀ f, q.fillPage = some f → takeHead p s = issueRecordWrite p r f.page s) ∧
    (ready → g.committed % g.rpp = 0 →
      (fresh → ∀ page t, claimPage r s = some (page, t) →
        let u := t.setRegion r { g with rollingCount := if g.anchor ≤ l then g.rollingCount + 1 else g.rollingCount }
        let v := writeUpdate r l page { u with store := { u.store with
          directoryOps := u.store.directoryOps ++ [.write r l page p] } }
        takeHead p s = v.setPort p { q with claim := some ⟨l, .directoryWrite, none, some page⟩ }) ∧
      (¬fresh ∨ claimPage r s = none →
        let w := g.wrapLength.getD g.rollingCount
        let slot := g.anchor + (l - g.anchor) % w
        let u := s.setRegion r { g with wrapLength := some w }
        (∀ page v, lookupSlot r slot (.writer p) u = (some page, v) →
          takeHead p s = recycleStep p r l { oldPage := l - w, slot := slot } page v) ∧
        (∀ v, lookupSlot r slot (.writer p) u = (none, v) →
          takeHead p s = v.setPort p { q with claim := some ⟨l, .directoryRead, some ⟨l - w, slot⟩, none⟩ })))

/-- The pin check (R138) and what the writer does with its answer (R78, R79, R113 to R115, R139). A pin covers logical page L
when its range meets the seq of L (R137). Under BREAK_PIN each covering window's pin is broken and its PIN_BROKEN raised, once each
and nothing else; in which order is left open here (notes/assumptions/27.md). -/
def Obligations.PinCheckAnswers : Prop :=
  ∀ (s : State) (p : PortId) (r : RegionId) (l : Nat) (rc : Recycle) (page : Nat),
    (∀ w, (s.window w).first ≤ (s.window w).last) →
    let g := s.region r
    let covers := fun w : WindowId => (s.window w).state ≠ .closed ∧ (s.window w).region = r ∧ (s.window w).pin = .standing ∧
      ∃ k, (s.window w).first ≤ k ∧ k ≤ (s.window w).last ∧ rc.oldPage * g.rpp ≤ k ∧ k < (rc.oldPage + 1) * g.rpp
    let advanced := { g with oldest := (rc.oldPage + 1) * g.rpp }
    let reuse := fun t : State => issueRecordWrite p r page
      (t.setPort p { s.port p with writer := .running, fillPage := some ⟨page, l⟩, claim := none })
    (g.capturing = false → recycleStep p r l rc page s = s) ∧
    (g.capturing = true → (∀ w, ¬covers w) → recycleStep p r l rc page s = reuse (s.setRegion r advanced)) ∧
    (g.capturing = true → (∃ w, covers w) → g.pinPolicy = .holdWriter → ∃ windows : List WindowId,
      windows.Pairwise (· < ·) ∧ (∀ w, w ∈ windows ↔ covers w) ∧
      recycleStep p r l rc page s = raiseEvent (.starved r) (.starved (l * g.rpp) windows)
        (s.setPort p { s.port p with writer := .starved, claim := some ⟨l, .pinHold, some rc, some page⟩ })) ∧
    (g.capturing = true → (∃ w, covers w) → g.pinPolicy = .breakPin → ∃ t : State,
      recycleStep p r l rc page s = reuse t ∧
      (∃ windows : List WindowId, windows.Nodup ∧ (∀ w, w ∈ windows ↔ covers w) ∧
        t = (windows.foldl (fun u w => raiseEvent (.pinBroken w)
            (.pinBroken r (max (s.window w).first (rc.oldPage * g.rpp))) (u.setWindow w { s.window w with pin := .broken }))
          s).setRegion r advanced) ∧
      t.device = s.device ∧ t.restart = s.restart ∧ t.region r = advanced ∧ (∀ q, q ≠ r → t.region q = s.region q) ∧
      (∀ w, covers w → t.window w = { s.window w with pin := .broken } ∧
        t.reports (.pinBroken w) (.pinBroken r (max (s.window w).first (rc.oldPage * g.rpp)))) ∧
      (∀ w, ¬covers w → t.window w = s.window w) ∧
      t.store = s.store ∧ t.alloc = s.alloc ∧ t.cache = s.cache ∧ t.ports = s.ports)

/-! ### Completions, stops and faults -/

/-- A completion report (R54, R57): committed rises by 1; a capturing region raises MARK at a multiple of M, then stops at its
post count, or else at 2^48 - 1; a STOPPED or FAULTED region raises STOPPED again. -/
def Obligations.CompletionsCountAndStop : Prop :=
  ∀ (s : State) (r : RegionId),
    let g := s.region r
    let c := g.committed + 1
    let t := s.setRegion r { g with committed := c }
    let marked := if g.markInterval ≠ 0 ∧ c % g.markInterval = 0 then raiseEvent (.mark r) (.mark c) t else t
    let atPost := g.state = .triggered ∧ ∃ trig, g.trigger = some trig ∧ trig.seq + g.postCount = c
    (g.capturing = true → atPost → completionReport r s = stopRegion r .postCount marked) ∧
    (g.capturing = true → ¬atPost → c = 281474976710655 → completionReport r s = stopRegion r .limit marked) ∧
    (g.capturing = true → ¬atPost → c ≠ 281474976710655 → completionReport r s = marked) ∧
    (g.state = .stopped ∨ g.state = .faulted →
      completionReport r s = raiseEvent (.stopped r) (.stopped g.stopCause c (g.trigger.map (·.seq))) t)

/-- What a stop does (R52 steps 1 to 4, R55, R56, R26): STOPPED with its cause, the reservation returned, the stop notice to
the bound port's writer alone, and STOPPED raised unless it is masked, in this order and nothing else; the return evaluates the
pool notice (R36), and the store, the slot cache and the windows stay. The stop
notice (R116): the writer IDLE, the staged records dropped FLUSH, the fill page gone, a claim abandoned unless its directory
operation is issued; a record write in flight, the assembly and the binding stay. -/
def Obligations.StopLeavesTheRegionStopped : Prop :=
  (∀ (s : State) (p : PortId),
    let q := s.port p
    let stopped := fun claim => s.setPort p { q with
      writer := .idle, staging := [], fillPage := none, claim := claim
      counts := { q.counts with dropFlush := q.counts.dropFlush + q.staging.length } }
    (q.claim = none → stopNotice p s = stopped none) ∧
    (∀ c, q.claim = some c → c.stage = .pinHold → stopNotice p s = stopped none) ∧
    (∀ c, q.claim = some c → c.stage ≠ .pinHold → stopNotice p s = stopped (some c))) ∧
  ∀ (s : State) (r : RegionId) (cause : StopCause),
    let g := s.region r
    let t := stopRegion r cause s
    let left := s.setRegion r { g with state := .stopped, stopCause := some cause }
    let returned := if s.reservation r = 0 then left else evaluateNotice { left with alloc := { s.alloc with
      reservations := s.alloc.reservations.set r.val 0 r.isLt, reservedTotal := s.alloc.reservedTotal - s.reservation r } }
    let notified := match g.boundPort with
      | none => returned
      | some p => stopNotice p returned
    t = raiseEvent (.stopped r) (.stopped (some cause) g.committed (g.trigger.map (·.seq))) notified ∧
    t.region r = { g with state := .stopped, stopCause := some cause } ∧ (∀ q, q ≠ r → t.region q = s.region q) ∧
    t.reservation r = 0 ∧ (∀ q, q ≠ r → t.reservation q = s.reservation q) ∧ (∀ q, t.owned q = s.owned q) ∧
    t.alloc.reservedTotal = s.alloc.reservedTotal - s.reservation r ∧ t.alloc.pool = s.alloc.pool ∧
    t.alloc.table = s.alloc.table ∧
    (∀ p, g.boundPort = some p → t.port p = (stopNotice p s).port p) ∧
    (∀ p, g.boundPort ≠ some p → t.port p = s.port p) ∧
    (g.eventMask.getLsbD 1 = false →
      t.reports (.stopped r) (.stopped (some cause) g.committed (g.trigger.map (·.seq)))) ∧
    t.store = s.store ∧ t.cache = s.cache ∧ t.windows = s.windows

/-- RECORD_WRITE_COMPLETE (R2, R5, R112): the record's bytes are stored with fresh check bits and no other byte or word changes;
stored rises by 1 and no write is in flight; the region takes the completion report; the writer, if it is still RUNNING, takes
the next head record; and the arbiter grants again. -/
def Obligations.RecordWriteStoresTheRecord : Prop :=
  ∀ (s : State) (p : PortId) (w : RecordWrite), s.store.port = some (.recordWrite p w) → w.page < 16384 →
    w.offset + w.bytes.length ≤ 4096 →
    let q := s.port p
    let a := w.page * 4096 + w.offset
    ∃ memory errors, Memory.holds memory a w.bytes ∧ Memory.sameOutside memory s.store.memory a w.bytes.length ∧
      wordErrorsSet errors s.store.errors (a / 8) (w.bytes.length / 8) (fun _ => .clean) ∧
      exec .recordWriteComplete s = .next (storeGrant (takeHead p (completionReport w.region
        ({ s with store := { s.store with memory := memory, errors := errors, port := none } }.setPort p { q with
          counts := { q.counts with stored := q.counts.stored + 1 }, inFlight := none }))))

/-- DIRECTORY_READ_COMPLETE (R2, R3, R7, R89, R91, R144): the word reads no better than the error that stands in it, and a corrected
word keeps its error. The slot's two bytes, high byte first, of the word as stored or of the other data its cells gave
(notes/assumptions/4.md, 5.md), are the page number; a number of a data page is installed, unless a valid entry of the pair
stands or the region is FAULTED, and answers the requester; an uncorrectable word or any other number faults the region, and the
requester is answered uncorrectable. Which of a reply and an event of the answer starts first is the model's choice
(notes/assumptions/11.md). -/
def Obligations.DirectoryReadAnswersTheRequester : Prop :=
  ∀ (s : State) (r : RegionId) (slot : Nat) (who : Requester) (word : WordRead),
    s.store.port = some (.directory (.read r slot who)) → slot < 2048 → s.cache.distinct →
    let n := r.val * 512 + slot / 4
    let outcome := worseOutcome (wordError s.store.errors n) word.outcome
    let v := match word.escaped with
      | none => (Memory.read s.store.memory (r.val * 4096 + 2 * slot)).toNat * 256
        + (Memory.read s.store.memory (r.val * 4096 + 2 * slot + 1)).toNat
      | some data => data.toNat / 2 ^ (48 - 16 * (slot % 4)) % 65536
    let corrected := if outcome = .corrected then 1 else 0
    let good := outcome ≠ .uncorrectable ∧ 16 ≤ v ∧ v ≤ 16383
    let installs := (s.region r).capturing = true ∨ (s.region r).state = .stopped
    let step := exec (.directoryReadComplete word) s
    ∃ errors, wordErrorsSet errors s.store.errors n 1 (fun _ =>
        if outcome = .corrected then .corrected else wordError s.store.errors n) ∧
      let t := { s with store := { s.store with
        port := none, errors := errors, correctable := min 65535 (s.store.correctable + corrected) } }
      (good → installs → (∀ i e, s.cache.entries.get i = some e → ¬(e.region = r ∧ e.slot = slot)) →
        step = .next (storeGrant (answerRequester r (some v) who (t.setCache (t.cache.install ⟨r, slot, v⟩))))) ∧
      (good → installs → ∀ i e, s.cache.entries.get i = some e → e.region = r → e.slot = slot →
        step = .next (storeGrant (answerRequester r (some e.page) who t))) ∧
      (good → ¬installs → step = .next (storeGrant (answerRequester r (some v) who t))) ∧
      (outcome = .uncorrectable ∨ v < 16 ∨ 16383 < v →
        step = .next (storeGrant (answerRequester r none who (faultReport r t))))

/-- An answer taken (R113, R117, R128, R132): a RUNNING writer at stage DIRECTORY_READ goes on with its recycle; the outstanding
claim of an IDLE writer ends; a fetch with no end cause issues the record read of its current seq; a fetch with one ends. -/
def Obligations.LookupAnswersAreTaken : Prop :=
  ∀ (s : State) (r : RegionId) (page : Nat),
    (∀ p l rc x, (s.port p).writer = .running → (s.port p).claim = some ⟨l, .directoryRead, some rc, x⟩ →
      answerRequester r (some page) (.writer p) s = recycleStep p r l rc page s) ∧
    (∀ p answer, (s.port p).writer = .idle →
      answerRequester r answer (.writer p) s = s.setPort p { s.port p with claim := none }) ∧
    (∀ w f ps, (s.window w).fetch = some f → f.endCause = none → (s.region (s.window w).region).params = some ps →
      let size := 2 ^ ps.sizeCode
      let t := s.setWindow w { s.window w with fetch := some { f with stage := .read } }
      answerRequester r (some page) (.window w) s = { t with store := { t.store with
        reads := t.store.reads.set w.val (some ⟨page, f.current % (4096 / size) * size, size⟩) w.isLt } }) ∧
    (∀ w f cause answer, (s.window w).fetch = some f → f.endCause = some cause →
      answerRequester r answer (.window w) s = fetchEndByCause w f cause s)

/-- DIRECTORY_WRITE_COMPLETE (R2, R3, R8, R74, R113, R117, R144): the slot's two bytes take the page number, high byte first, the
other bytes of the word are written back as read (as stored, or as the other data its cells gave, notes/assumptions/5.md) with
fresh check bits, and nothing else of the store changes; a RUNNING writer's claim ends with the page and its record write is
issued, an outstanding claim ends. An uncorrectable word, which an error that stands makes too, keeps what it held and is
unreadable until it is written again, the claim ends and the region takes the report of a fault (R148). -/
def Obligations.DirectoryWriteStoresTheSlot : Prop :=
  ∀ (s : State) (r : RegionId) (slot page : Nat) (p : PortId) (word : WordRead),
    s.store.port = some (.directory (.write r slot page p)) → slot < 2048 → page < 65536 →
    let q := s.port p
    let a := r.val * 4096 + 2 * slot
    let n := r.val * 512 + slot / 4
    let outcome := worseOutcome (wordError s.store.errors n) word.outcome
    let corrected := if outcome = .corrected then 1 else 0
    let t := { s with store := { s.store with port := none, correctable := min 65535 (s.store.correctable + corrected) } }
    let step := exec (.directoryWriteComplete word) s
    (outcome ≠ .uncorrectable → ∃ memory errors,
      Memory.read memory a = BitVec.ofNat 8 (page / 256) ∧ Memory.read memory (a + 1) = BitVec.ofNat 8 page ∧
      (word.escaped = none → Memory.sameOutside memory s.store.memory a 2) ∧
      (∀ data, word.escaped = some data → Memory.sameOutside memory s.store.memory (n * 8) 8 ∧
        ∀ i, i < 8 → i / 2 ≠ slot % 4 → Memory.read memory (n * 8 + i) = BitVec.ofNat 8 (data.toNat / 256 ^ (7 - i))) ∧
      wordErrorsSet errors s.store.errors n 1 (fun _ => .clean) ∧
      let u := { t with store := { t.store with memory := memory, errors := errors } }
      (∀ c, q.writer = .running → q.claim = some c → step = .next (storeGrant (issueRecordWrite p r page (u.setPort p
        { q with fillPage := some ⟨page, c.newPage⟩, claim := none })))) ∧
      (q.writer ≠ .running → step = .next (storeGrant (u.setPort p { q with claim := none })))) ∧
    (outcome = .uncorrectable → ∃ errors, wordErrorsSet errors s.store.errors n 1 (fun _ => .uncorrectable) ∧
      step = .next (storeGrant (faultReport r ({ t with store := { t.store with errors := errors } }.setPort p
        { q with claim := none }))))

/-- The fault of a region (R62, R64, R148): the whole cascade for a capturing or STOPPED region, in its order: the region's record,
the return of its reservation, the purge of its entries, the stop notice, the fault notice to the fetches, MEDIA_ERROR and then
STOPPED, and nothing else; MEDIA_ERROR again for a FAULTED one. -/
def Obligations.FaultCascade : Prop :=
  ∀ (s : State) (r : RegionId),
    let g := s.region r
    let t := faultReport r s
    let left := s.setRegion r { g with
      state := .faulted, stopCause := some .fault, faultPage := some r.val, suspect := true }
    let returned := if s.reservation r = 0 then left else evaluateNotice { left with alloc := { s.alloc with
      reservations := s.alloc.reservations.set r.val 0 r.isLt, reservedTotal := s.alloc.reservedTotal - s.reservation r } }
    let purged := { returned with cache := { s.cache with
      entries := s.cache.entries.map (fun e => if e.map (·.region) = some r then none else e) } }
    let notified := match g.boundPort with
      | none => purged
      | some p => stopNotice p purged
    let marked := { notified with windows := s.windows.map (fun w => match w.fetch with
      | some f => if w.region = r ∧ f.endCause = none then { w with fetch := some { f with endCause := some .fault } } else w
      | none => w) }
    (g.capturing = true ∨ g.state = .stopped →
      t = raiseEvent (.stopped r) (.stopped (some .fault) g.committed (g.trigger.map (·.seq)))
        (raiseEvent (.mediaError r) (.mediaError r.val .directory none) marked)) ∧
    (g.state = .faulted → t = raiseEvent (.mediaError r) (.mediaError r.val .directory none) s) ∧
    (g.capturing = true ∨ g.state = .stopped →
      t.region r = { g with state := .faulted, stopCause := some .fault, faultPage := some r.val, suspect := true } ∧
      (∀ q, q ≠ r → t.region q = s.region q) ∧
      t.reservation r = 0 ∧ (∀ q, q ≠ r → t.reservation q = s.reservation q) ∧ (∀ q, t.owned q = s.owned q) ∧
      t.alloc.reservedTotal = s.alloc.reservedTotal - s.reservation r ∧ t.alloc.pool = s.alloc.pool ∧
      t.alloc.table = s.alloc.table ∧
      (∀ i e, t.cache.entries.get i = some e ↔ s.cache.entries.get i = some e ∧ e.region ≠ r) ∧
      t.cache.victim = s.cache.victim ∧ t.cache.hits = s.cache.hits ∧ t.cache.misses = s.cache.misses ∧
      (∀ p, g.boundPort = some p → t.port p = (stopNotice p s).port p) ∧
      (∀ p, g.boundPort ≠ some p → t.port p = s.port p) ∧
      (∀ w f, (s.window w).fetch = some f → (s.window w).region = r → f.endCause = none →
        t.window w = { s.window w with fetch := some { f with endCause := some .fault } }) ∧
      (∀ w, (s.window w).fetch = none ∨ (s.window w).region ≠ r ∨
          (∃ f, (s.window w).fetch = some f ∧ f.endCause ≠ none) → t.window w = s.window w) ∧
      (g.eventMask.getLsbD 4 = false → t.reports (.mediaError r) (.mediaError r.val .directory none)) ∧
      (g.eventMask.getLsbD 1 = false →
        t.reports (.stopped r) (.stopped (some .fault) g.committed (g.trigger.map (·.seq)))) ∧
      t.store = s.store)

/-! ### Fetches -/

/-- The next record of a fetch (R82, R128): its slot by R72, asked of the slot cache; on a hit the record read is issued, on a
miss the fetch waits at stage LOOKUP. That a seq which a recycle has taken since the FETCH is translated too (R128, R133) is the
model's reading (notes/assumptions/26.md). -/
def Obligations.FetchLooksUpTheNextRecord : Prop :=
  ∀ (s : State) (w : WindowId) (f : Fetch) (ps : Params), (s.region (s.window w).region).params = some ps →
    let x := s.window w
    let g := s.region x.region
    let size := 2 ^ ps.sizeCode
    let l := f.current / (4096 / size)
    ∀ slot, (g.wrapLength = none → slot = l) → (l < ps.anchor → slot = l) →
      (∀ n, g.wrapLength = some n → ps.anchor ≤ l → slot = ps.anchor + (l - ps.anchor) % n) →
      (∀ page t, lookupSlot x.region slot (.window w) s = (some page, t) →
        let u := t.setWindow w { x with fetch := some { f with stage := .read } }
        fetchNext w f s = { u with store := { u.store with
          reads := u.store.reads.set w.val (some ⟨page, f.current % (4096 / size) * size, size⟩) w.isLt } }) ∧
      (∀ t, lookupSlot x.region slot (.window w) s = (none, t) →
        fetchNext w f s = t.setWindow w { x with fetch := some { f with stage := .lookup } })

/-- RECORD_READ_COMPLETE (R2, R6, R9, R129, R130, R132, R144, R146): each word reads no better than the error that stands in it,
and a corrected word keeps its error; the record's bytes as stored; an uncorrectable word marks the page suspect and raises
MEDIA_ERROR; an end cause ends the fetch; else the fetch ends MEDIA_ERROR, ends EXPIRED where the record's page was recycled,
ends OK at N records, or goes on with the next seq. That it goes on to a next seq that a recycle has taken (R133), and
that R82 does not forbid it, is the model's reading (notes/assumptions/26.md). Which of the reply and the event starts first is the model's choice
(notes/assumptions/11.md). -/
def Obligations.RecordReadCompletes : Prop :=
  ∀ (s : State) (w : WindowId) (op : RecordRead) (f : Fetch) (words : List (Nat × WordOutcome)),
    s.store.port = some (.recordRead w op) → op.page < 16384 → op.offset + op.length ≤ 4096 →
    (s.window w).fetch = some f →
    let r := (s.window w).region
    let g := s.region r
    let a := op.page * 4096 + op.offset
    let outcome := fun i => worseOutcome (wordError s.store.errors (a / 8 + i)) (wordOutcomeAt words i)
    let count := (List.range (op.length / 8)).countP (fun i => decide (outcome i = .corrected))
    let bad := ∃ i, i < op.length / 8 ∧ outcome i = .uncorrectable
    let expired := g.anchor * g.rpp ≤ f.current ∧ f.current < g.oldest
    let step := exec (.recordReadComplete words) s
    ∃ (bytes : List Byte) (errors : List (Nat × WordOutcome)),
      bytes.length = op.length ∧ Memory.holds s.store.memory a bytes ∧
      wordErrorsSet errors s.store.errors (a / 8) (op.length / 8) (fun i =>
        if outcome i = .corrected then .corrected else wordError s.store.errors (a / 8 + i)) ∧
      let t := { s with store := { s.store with
        port := none, errors := errors, correctable := min 65535 (s.store.correctable + count) } }
      let failed := raiseEvent (.mediaError r) (.mediaError op.page .record (some f.current)) (markSuspect op.page t)
      (∀ cause, f.endCause = some cause → bad → step = .next (storeGrant (fetchEndByCause w f cause failed))) ∧
      (∀ cause, f.endCause = some cause → ¬bad → step = .next (storeGrant (fetchEndByCause w f cause t))) ∧
      (f.endCause = none → bad → step = .next (storeGrant (fetchEnd w f .mediaError f.gathered failed))) ∧
      (f.endCause = none → ¬bad → expired → step = .next (storeGrant (fetchEnd w f .expired f.gathered t))) ∧
      (f.endCause = none → ¬bad → ¬expired → f.total ≤ f.gathered.length + 1 →
        step = .next (storeGrant (fetchEnd w f .ok (f.gathered ++ [bytes]) t))) ∧
      (f.endCause = none → ¬bad → ¬expired → f.gathered.length + 1 < f.total →
        step = .next (storeGrant (fetchNext w { f with gathered := f.gathered ++ [bytes], current := f.current + 1 } t)))

/-- The end of a fetch (R131, R135, R140, R142) and what its cause delivers: the FETCH reply, the cursor advanced by the records
delivered, no fetch in flight; then a CLOSING window, and any window during RESTART, closes with the pin-end notice of a
STANDING pin, and a waiting CLOSE is answered behind the FETCH reply. Where the notice raises an event, which of it and the
CLOSE reply starts first is the model's choice (notes/assumptions/11.md), and that the CLOSE reply carries the final cursor and
the pin before the close is its reading (16.md). -/
def Obligations.FetchEnds : Prop :=
  ∀ (s : State) (w : WindowId) (f : Fetch) (status : Status) (records : List (List Byte)),
    let x := s.window w
    let n := records.length
    let size := if x.state = .closed then 0 else (s.region x.region).sizeCode
    let number : Byte := BitVec.ofNat 8 w.val
    let body := [number, BitVec.ofNat 8 size] ++ beBytes 2 n ++ beBytes 6 f.firstSeq ++ beBytes 6 (f.firstSeq + n)
      ++ records.flatten
    let ended := { x with cursor := x.cursor + n, fetch := none }
    let t := (makeReply f.tag f.stale status body s).setWindow w ended
    let shut := t.setWindow w { ended with state := .closed, pin := .none, closeTag := none }
    let noticed := if x.pin = .standing then pinEndNotice x.region shut else shut
    let closes := x.state = .closing ∨ s.device = .restarting
    fetchEndByCause w f .fault s = fetchEnd w f .faulted f.gathered s ∧
    fetchEndByCause w f .close s = fetchEnd w f .closed [] s ∧
    fetchEndByCause w f .restart s = fetchEnd w f .aborted [] s ∧
    (¬closes → fetchEnd w f status records s = t) ∧
    (closes → x.closeTag = none → fetchEnd w f status records s = noticed) ∧
    (closes → ∀ c, x.closeTag = some c → fetchEnd w f status records s =
      makeReply c.tag c.stale .ok ([number] ++ beBytes 6 (x.cursor + n) ++ [x.pin.code]) noticed)

/-- A suspect mark (R27) and a pin-end notice (R115, R140): the mark has an effect on an OWNED page only, and the notice on a
STARVED writer that holds at PIN_HOLD only, which asks the pin check of the same logical page again. -/
def Obligations.SuspectMarksAndPinEnds : Prop :=
  ∀ s : State,
    (∀ page r flag, tableEntry s.alloc.table page = .owned r flag →
      markSuspect page s = { s with alloc := { s.alloc with table := tableSet s.alloc.table page (.owned r true) } }) ∧
    (∀ page, tableEntry s.alloc.table page = .free ∨ tableEntry s.alloc.table page = .retired → markSuspect page s = s) ∧
    (∀ table page entry q, tableEntry (tableSet table page entry) q = if q = page then entry else tableEntry table q) ∧
    (∀ r, (s.region r).boundPort = none → pinEndNotice r s = s) ∧
    (∀ r p, (s.region r).boundPort = some p → (s.port p).writer ≠ .starved → pinEndNotice r s = s) ∧
    (∀ r p l rc page, (s.region r).boundPort = some p → (s.port p).writer = .starved →
      (s.port p).claim = some ⟨l, .pinHold, some rc, some page⟩ → pinEndNotice r s = recycleStep p r l rc page s)

/-! ### The walks and RESTART -/

/-- RELEASE_WALK_STEP (R31, R32): a page OWNED by the releasing region returns to the pool tail, or is retired where it is
suspect; any other page is left; after page 16383 the region is IDLE, the reply is made with the counts and the scanner is
IDLE. That a POOL_LOW of the last page's return starts before the reply is the model's choice (notes/assumptions/11.md). -/
def Obligations.ReleaseWalkTakesOnePage : Prop :=
  ∀ (s : State) (r : RegionId) (page returned retired : Nat) (tag : Byte) (stale : Bool),
    s.alloc.scanner = .releaseWalk r page returned retired tag stale →
    let goOn := fun (n m : Nat) (t : State) =>
      if page + 1 < 16384 then { t with alloc := { t.alloc with scanner := .releaseWalk r (page + 1) n m tag stale } }
      else
        let u := makeReply tag stale .ok ([BitVec.ofNat 8 r.val] ++ beBytes 2 n ++ beBytes 2 m)
          (t.setRegion r { t.region r with state := .idle })
        { u with alloc := { u.alloc with scanner := .idle } }
    let owned := s.alloc.ownedPages.set r.val (s.owned r - 1) r.isLt
    ((∀ flag, tableEntry s.alloc.table page ≠ .owned r flag) → exec .releaseWalkStep s = .next (goOn returned retired s)) ∧
    (tableEntry s.alloc.table page = .owned r false → exec .releaseWalkStep s =
      .next (goOn (returned + 1) retired (evaluateNotice { s with alloc := { s.alloc with
        pool := s.alloc.pool ++ [page], table := tableSet s.alloc.table page .free, ownedPages := owned } }))) ∧
    (tableEntry s.alloc.table page = .owned r true → s.alloc.retiredList.length < 512 → exec .releaseWalkStep s =
      .next (goOn returned (retired + 1) { s with alloc := { s.alloc with
        retiredList := s.alloc.retiredList ++ [⟨page, .release, some r⟩]
        table := tableSet s.alloc.table page .retired, ownedPages := owned } })) ∧
    (tableEntry s.alloc.table page = .owned r true → 512 ≤ s.alloc.retiredList.length → exec .releaseWalkStep s =
      .next (goOn returned (retired + 1) { s with alloc := { s.alloc with
        retiredIncomplete := true, table := tableSet s.alloc.table page .retired, ownedPages := owned } }))

/-- RESTART_WALK_BEGIN and a RESTART_WALK_STEP that is not the last (R28, R34, R96, R192): the walk begins once the store
controller is idle, with the slot cache purged; before that a RESTART_WALK_BEGIN changes nothing, which is the model's choice
(notes/assumptions/2.md). An OWNED page returns to the pool tail, or is retired where it is suspect; any other page is left. -/
def Obligations.RestartWalkBeginsAndSteps : Prop :=
  ∀ s : State,
    let idle := s.store.port = none ∧ s.store.directoryOps = [] ∧ (∀ p, s.store.writes.get p = none) ∧
      ∀ w, s.store.reads.get w = none
    (s.device = .restarting → s.alloc.scanner = .idle → idle → exec .restartWalkBegin s = .next { s with
      alloc := { s.alloc with scanner := .restartWalk 16 }
      cache := { entries := Vector.replicate 24 none, victim := 0, hits := 0, misses := 0 } }) ∧
    (s.device ≠ .restarting ∨ s.alloc.scanner ≠ .idle ∨ ¬idle → exec .restartWalkBegin s = .next s) ∧
    (∀ page, s.alloc.scanner = .restartWalk page → page + 1 < 16384 →
      (tableEntry s.alloc.table page = .free ∨ tableEntry s.alloc.table page = .retired →
        exec .restartWalkStep s = .next { s with alloc := { s.alloc with scanner := .restartWalk (page + 1) } }) ∧
      (∀ r, tableEntry s.alloc.table page = .owned r false →
        exec .restartWalkStep s = .next { s with alloc := { s.alloc with
          scanner := .restartWalk (page + 1)
          pool := s.alloc.pool ++ [page]
          table := tableSet s.alloc.table page .free
          ownedPages := s.alloc.ownedPages.set r.val (s.owned r - 1) r.isLt } }) ∧
      (∀ r, tableEntry s.alloc.table page = .owned r true → s.alloc.retiredList.length < 512 →
        exec .restartWalkStep s = .next { s with alloc := { s.alloc with
          scanner := .restartWalk (page + 1)
          retiredList := s.alloc.retiredList ++ [⟨page, .restart, some r⟩]
          table := tableSet s.alloc.table page .retired
          ownedPages := s.alloc.ownedPages.set r.val (s.owned r - 1) r.isLt } }) ∧
      (∀ r, tableEntry s.alloc.table page = .owned r true → 512 ≤ s.alloc.retiredList.length →
        exec .restartWalkStep s = .next { s with alloc := { s.alloc with
          scanner := .restartWalk (page + 1)
          retiredIncomplete := true
          table := tableSet s.alloc.table page .retired
          ownedPages := s.alloc.ownedPages.set r.val (s.owned r - 1) r.isLt } }))

/-- The last RESTART_WALK_STEP (R28, R34, R38, R68, R119, R164, R192 stages 1 to 6): page 16383 is returned, retired or left; the
pool is every FREE page ascending, the reservations and owned counts are 0, every defined region is IDLE, the ports' counts are
cleared; the event queue is emptied and READY (RESTART) raised, the device is in RUN, the notice is armed and evaluated, the
RESTART is answered and the engine RUNNING. Of READY, a POOL_LOW and the reply the one made first starts first, the model's
choice (notes/assumptions/11.md). -/
def Obligations.RestartCompletes : Prop :=
  ∀ s : State, s.alloc.scanner = .restartWalk 16383 →
    let last := tableEntry s.alloc.table 16383
    ∃ (a : Allocator) (regions : Vector Region 16) (ports : Vector Port 4),
      (∀ page, page ≠ 16383 → tableEntry a.table page = tableEntry s.alloc.table page) ∧
      (last = .free ∨ last = .retired → tableEntry a.table 16383 = last) ∧
      (∀ r, last = .owned r false → tableEntry a.table 16383 = .free) ∧
      (∀ r, last = .owned r true → tableEntry a.table 16383 = .retired) ∧
      (∀ r, last = .owned r true → s.alloc.retiredList.length < 512 →
        a.retiredList = s.alloc.retiredList ++ [⟨16383, .restart, some r⟩] ∧
        a.retiredIncomplete = s.alloc.retiredIncomplete) ∧
      (∀ r, last = .owned r true → 512 ≤ s.alloc.retiredList.length →
        a.retiredList = s.alloc.retiredList ∧ a.retiredIncomplete = true) ∧
      ((∀ r, last ≠ .owned r true) →
        a.retiredList = s.alloc.retiredList ∧ a.retiredIncomplete = s.alloc.retiredIncomplete) ∧
      a.pool = (List.range' 16 16368).filter (fun page => decide (tableEntry a.table page = .free)) ∧
      a.reservedTotal = 0 ∧ (∀ r, a.reservations.get r = 0 ∧ a.ownedPages.get r = 0) ∧ a.scanner = .idle ∧
      a.threshold = s.alloc.threshold ∧
      (∀ r, (s.region r).state = .unused → regions.get r = s.region r) ∧
      (∀ r, (s.region r).state ≠ .unused → regions.get r = { s.region r with state := .idle }) ∧
      (∀ p, ports.get p = { s.port p with assembly := none, halted := false, counts := ⟨0, 0, 0, 0, 0, 0⟩ }) ∧
      let raised := raiseEvent .ready (.ready .restart)
        { s with alloc := a, regions := regions, ports := ports, events := { s.events with entries := [] } }
      let u := evaluateNotice { raised with device := .run, alloc := { raised.alloc with armed := true } }
      let v := match s.restart with
        | some q => makeReply q.tag q.stale .ok [] u
        | none => u
      exec .restartWalkStep s = .next { v with restart := none, link := { v.link with engine := .running } } ∧
      (∀ e ∈ u.events.entries, e.key = .ready ∨ e.key = .poolLow) ∧
      u.reports .ready (.ready .restart) ∧
      (u.alloc.armed = true → u.alloc.threshold ≤ u.alloc.available)

/-! ### The host link -/

/-- A character by the receiver's phase (R167, R168): discarded on a framing error; in HUNT only SYNC is kept; LENGTH, header,
body and the first CHECK byte are kept; nothing else changes. At a LENGTH outside 2..64 or a wrong CHECK (R169, R171) the
partial frame is dropped, LINK_ERROR is raised with its cause, and the kept bytes after the discarded SYNC are taken again, one
by one, as if they had just come from the line; that the bytes after a valid frame found among them are scanned too is the
model's reading (notes/assumptions/12.md), and that the LINK_ERROR of the discard goes before a READY of such a frame its choice
(29.md). CHARACTER_TAKEN and FRAME_RECEIVED take the byte alike (13.md). -/
def Obligations.BytesAreTakenByPhase : Prop :=
  ∀ (s : State) (b : Byte) (c : Instr), c = .characterTaken b true ∨ c = .frameReceived b →
    let kept := s.link.kept
    let length := (kept.getD 1 0).toNat * 256 + (kept.getD 2 0).toNat
    let newLength := (kept.getD 1 0).toNat * 256 + b.toNat
    let keep := { s with link := { s.link with kept := kept ++ [b] } }
    let dropped := { s with link := { s.link with kept := [] } }
    let again := fun t : State => (kept.drop 1 ++ [b]).foldl (fun u x => receiveByte x u) t
    exec c s = .next (receiveByte b s) ∧
    exec (.characterTaken b false) s = .next s ∧
    (kept = [] → b = 0xA5 → exec c s = .next keep) ∧
    (kept = [] → b ≠ 0xA5 → exec c s = .next s) ∧
    (kept.length = 1 → exec c s = .next keep) ∧
    (kept.length = 2 → 2 ≤ newLength → newLength ≤ 64 → exec c s = .next keep) ∧
    (3 ≤ kept.length → kept.length ≤ 3 + length → exec c s = .next keep) ∧
    (kept.length = 2 → newLength < 2 ∨ 64 < newLength →
      exec c s = .next (again (raiseEvent .linkError (.linkError .badLength none) dropped))) ∧
    (kept.length = 4 + length → 2 ≤ length →
      (frameCheck ((kept.drop 1).take (2 + length))).toNat ≠ (kept.getD (3 + length) 0).toNat * 256 + b.toNat →
      exec c s = .next (again (raiseEvent .linkError (.linkError .badCheck kept[4]?) dropped)))

/-- A valid frame (R169, R172, R174): the partial frame is dropped, a QUIET link becomes ACTIVE, with READY raised in RUN where
none is pending (R163), and the request joins the queue while fewer than 8 are outstanding; else it is discarded with
LINK_ERROR, cause CREDIT. -/
def Obligations.ValidFramesAreAccepted : Prop :=
  ∀ (s : State) (b : Byte) (length : Nat), 2 ≤ length → s.link.kept.length = 4 + length →
    (s.link.kept.getD 1 0).toNat * 256 + (s.link.kept.getD 2 0).toNat = length →
    (frameCheck ((s.link.kept.drop 1).take (2 + length))).toNat = (s.link.kept.getD (3 + length) 0).toNat * 256 + b.toNat →
    let kind := s.link.kept.getD 3 0
    let tag := s.link.kept.getD 4 0
    let body := (s.link.kept.drop 5).take (length - 2)
    let pending := ∃ e ∈ s.events.entries, e.key = .ready
    let t := { s with link := { s.link with kept := [], state := .active } }
    let ready := raiseEvent .ready (.ready s.events.readyCause) t
    ∃ u : State, exec (.frameReceived b) s =
        .next (if u.link.outstanding < 8 then { u with link := { u.link with
            requests := u.link.requests ++ [⟨kind, tag, body⟩], outstanding := u.link.outstanding + 1 } }
          else raiseEvent .linkError (.linkError .credit (some tag)) u) ∧
      (s.link.state = .active → u = t) ∧
      (s.link.state = .quiet → s.device = .run ∧ ¬pending → u = ready) ∧
      (s.link.state = .quiet → s.device ≠ .run ∨ pending → u = arbitrate t)

/-- INTER_BYTE_TIMEOUT (R170, R171): outside HUNT the partial frame is dropped whole and LINK_ERROR TRUNCATED is raised, with
the tag where it was taken. LINK_BREAK (R173, R175, R162): while QUIET only the partial frame is dropped; while ACTIVE the link
is QUIET in a new epoch, its queues are empty, every running request is stale, the pending events stay, and no other block
changes. -/
def Obligations.TimeoutsAndBreaksDropFrames : Prop :=
  ∀ s : State,
    (s.link.kept ≠ [] → s.link.kept.length ≤ 4 → exec .interByteTimeout s =
      .next (raiseEvent .linkError (.linkError .truncated none) { s with link := { s.link with kept := [] } })) ∧
    (5 ≤ s.link.kept.length → exec .interByteTimeout s = .next (raiseEvent .linkError
      (.linkError .truncated (some (s.link.kept.getD 4 0))) { s with link := { s.link with kept := [] } })) ∧
    (s.link.state = .quiet → exec .linkBreak s = .next { s with link := { s.link with kept := [] } }) ∧
    (s.link.state = .active → ∃ t, exec .linkBreak s = .next t ∧
      t.link = { s.link with kept := [], state := .quiet, epoch := s.link.epoch + 1, transmitting := none, requests := [],
                             replies := [], outstanding := 0, runCount := 0 } ∧
      t.events = { s.events with readyCause := .link } ∧
      (∀ w, t.window w = { s.window w with
        fetch := (s.window w).fetch.map (fun f => { f with stale := true })
        closeTag := (s.window w).closeTag.map (fun c => { c with stale := true }) }) ∧
      (∀ r page n m tag stale, s.alloc.scanner = .releaseWalk r page n m tag stale →
        t.alloc = { s.alloc with scanner := .releaseWalk r page n m tag true }) ∧
      ((∀ r page n m tag stale, s.alloc.scanner ≠ .releaseWalk r page n m tag stale) → t.alloc = s.alloc) ∧
      t.restart = s.restart.map (fun q => { q with stale := true }) ∧
      t.regions = s.regions ∧ t.ports = s.ports ∧ t.store = s.store ∧ t.cache = s.cache ∧ t.device = s.device)

/-! ### Dispatch -/

/-- The dispatch tests (R183): an unknown KIND, a body of another length than 11.3 gives, and any kind but IDENTIFY and STATUS
in INIT are answered with an empty body and change nothing. -/
def Obligations.DispatchTurnsRequestsAway : Prop :=
  let lengths : List (Byte × Nat) := [(0x01, 0), (0x02, 0), (0x03, 0), (0x04, 2), (0x05, 2), (0x10, 14), (0x11, 1), (0x12, 1),
    (0x13, 1), (0x14, 1), (0x15, 1), (0x16, 2), (0x20, 3), (0x21, 1), (0x30, 15), (0x31, 3), (0x32, 1), (0x33, 1)]
  (∀ s kind tag body rest, Takes s kind tag body rest → (∀ x ∈ lengths, x.1 ≠ kind) →
    exec (.unknownKind kind tag body) s = .next (makeReply tag false .unknownKind [] (s.taken rest))) ∧
  (∀ s c q rest n, c.request = some q → Takes s q.kind q.tag q.body rest → (q.kind, n) ∈ lengths → q.body.length ≠ n →
    exec c s = .next (makeReply q.tag false .badLength [] (s.taken rest))) ∧
  (∀ s c q rest n, c.request = some q → Takes s q.kind q.tag q.body rest → (q.kind, n) ∈ lengths → q.body.length = n →
    s.device = .init → q.kind ≠ 0x01 → q.kind ≠ 0x02 →
    exec c s = .next (makeReply q.tag false .notReady [] (s.taken rest)))

/-- A number out of range (R43, R106, R122, R182, R184): a region request, a port request or a window request whose number field
is out of range is answered BAD_ARG, its reply carrying the number received and zeros in the length of its kind. -/
def Obligations.NumbersOutOfRangeAreBadArguments : Prop :=
  ∀ s c q rest (b : Byte) (more : List Byte), c.request = some q → Requested s q.kind q.tag q.body rest → q.body = b :: more →
    (∀ length n, (q.kind, n, length) ∈ ([(0x10, 14, 16), (0x11, 1, 5), (0x12, 1, 9), (0x13, 1, 15), (0x14, 1, 5), (0x15, 1, 50),
        (0x16, 2, 2)] : List (Byte × Nat × Nat)) → q.body.length = n → 16 ≤ b.toNat →
      exec c s = .next (makeReply q.tag false .badArg (b :: List.replicate (length - 1) 0) (s.taken rest))) ∧
    (∀ length n, (q.kind, n, length) ∈ ([(0x20, 3, 3), (0x21, 1, 46), (0x31, 3, 16), (0x32, 1, 8), (0x33, 1, 31)] :
        List (Byte × Nat × Nat)) → q.body.length = n → 4 ≤ b.toNat →
      exec c s = .next (makeReply q.tag false .badArg (b :: List.replicate (length - 1) 0) (s.taken rest)))

/-! ### Requests of the device and the page allocator -/

/-- IDENTIFY (R194), STATUS (R195) and RETIRED (R35) change nothing but the queue of requests: their reply bodies field by
field. The zeros of the flag bits that 11.5 does not name are the model's choice (notes/assumptions/28.md). -/
def Obligations.DeviceReadsAnswer : Prop :=
  ∀ (s : State) (tag : Byte) (rest : List Request),
    let incomplete : Byte := if s.alloc.retiredIncomplete then 1 else 0
    let listed := s.alloc.retiredList.length
    (Takes s 0x01 tag [] rest → exec (.identify tag []) s = .next (makeReply tag false .ok
      ([0x26, 0x40, 0x01] ++ beBytes 2 4096 ++ beBytes 2 16384 ++ beBytes 2 16368 ++ [16, 4, 4, 24, s.link.epoch])
      (s.taken rest))) ∧
    (Takes s 0x02 tag [] rest → exec (.status tag []) s = .next (makeReply tag false .ok
      ([s.device.code] ++ beBytes 2 s.alloc.pool.length ++ beBytes 2 s.alloc.reservedTotal
        ++ beBytes 2 (s.alloc.pool.length - s.alloc.reservedTotal) ++ beBytes 2 s.alloc.threshold
        ++ beBytes 2 (s.alloc.table.countP (fun e => decide (e.2 = .retired))) ++ [incomplete]
        ++ beBytes 2 s.store.correctable ++ beBytes 4 s.cache.hits ++ beBytes 4 s.cache.misses
        ++ [s.link.epoch, BitVec.ofNat 8 s.link.outstanding] ++ (List.finRange 16).map (fun r => (s.region r).state.code))
      (s.taken rest))) ∧
    (∀ offset, offset < 65536 → Requested s 0x05 tag (beBytes 2 offset) rest →
      (offset ≤ listed → exec (.retired tag (beBytes 2 offset)) s = .next (makeReply tag false .ok
        (beBytes 2 listed ++ [incomplete] ++ beBytes 2 offset ++ beBytes 2 (min 256 (listed - offset))
          ++ ((s.alloc.retiredList.drop offset).take 256).flatMap (fun e => beBytes 2 e.page ++
            [e.origin.code, match e.region with | none => 0xFF | some r => BitVec.ofNat 8 r.val]))
        (s.taken rest))) ∧
      (listed < offset → exec (.retired tag (beBytes 2 offset)) s = .next (makeReply tag false .badArg
        (beBytes 2 listed ++ [incomplete, 0, 0, 0, 0]) (s.taken rest))))

/-- RESTART taken (R191, R33, R119, R142): the engine HELD and the device RESTARTING; a release walk abandoned with its reply
ABORTED; every writer stopped and every port halted; every OPEN window without a fetch CLOSED, and every fetch marked to end.
The regions, the store and the slot cache stay. -/
def Obligations.RestartBegins : Prop :=
  ∀ (s : State) (tag : Byte) (rest : List Request), Requested s 0x03 tag [] rest →
    let u := { s with
      device := .restarting, restart := some { tag := tag, stale := false }
      link := { s.link with requests := rest, engine := .held } }
    ∃ t, exec (.restart tag []) s = .next t ∧ t.device = .restarting ∧ t.restart = some ⟨tag, false⟩ ∧
      (∀ r page n m walkTag stale, s.alloc.scanner = .releaseWalk r page n m walkTag stale →
        let v := makeReply walkTag stale .aborted ([BitVec.ofNat 8 r.val] ++ beBytes 2 n ++ beBytes 2 m)
          { u with alloc := { s.alloc with scanner := .idle } }
        t.link = v.link ∧ t.events = v.events ∧ t.alloc = { s.alloc with scanner := .idle }) ∧
      ((∀ r page n m walkTag stale, s.alloc.scanner ≠ .releaseWalk r page n m walkTag stale) →
        t.link = u.link ∧ t.events = s.events ∧ t.alloc = s.alloc) ∧
      (∀ p, t.port p = { (stopNotice p s).port p with halted := true }) ∧
      (∀ w, (s.window w).fetch = none → (s.window w).state = .opened →
        t.window w = { s.window w with state := .closed, pin := .none, closeTag := none }) ∧
      (∀ w, (s.window w).fetch = none → (s.window w).state ≠ .opened → t.window w = s.window w) ∧
      (∀ w f, (s.window w).fetch = some f → t.window w = { s.window w with
        fetch := some { f with endCause := some (f.endCause.getD .restart) } }) ∧
      t.regions = s.regions ∧ t.store = s.store ∧ t.cache = s.cache

/-- SET_POOL_NOTICE (R37) and SET_EVENTS (R66, R159): the threshold armed and evaluated; the mask replaced, with the pending
events that are newly masked removed. A value out of range changes nothing. That a POOL_LOW starts before the reply of
SET_POOL_NOTICE is the model's choice (notes/assumptions/11.md), and so are the zeros of a refusal (16.md). -/
def Obligations.SettingsTakeEffect : Prop :=
  ∀ (s : State) (tag : Byte) (rest : List Request),
    (∀ x, x < 65536 → Requested s 0x04 tag (beBytes 2 x) rest →
      (x ≤ 16368 → exec (.setPoolNotice tag (beBytes 2 x)) s = .next (makeReply tag false .ok
        (beBytes 2 x ++ beBytes 2 s.alloc.available ++ beBytes 2 s.alloc.reservedTotal)
        (evaluateNotice { s.taken rest with alloc := { s.alloc with threshold := x, armed := true } }))) ∧
      (16368 < x → exec (.setPoolNotice tag (beBytes 2 x)) s =
        .next (makeReply tag false .badArg [0, 0, 0, 0, 0, 0] (s.taken rest)))) ∧
    (∀ (b m : Byte) (r : RegionId), b.toNat = r.val → Requested s 0x16 tag [b, m] rest →
      let t := (s.taken rest).setRegion r { s.region r with eventMask := m.setWidth 5 }
      (m.toNat < 32 → exec (.setEvents tag [b, m]) s = .next (makeReply tag false .ok [b, m]
        { t with events := { s.events with
          entries := s.events.entries.filter (fun e => !(masked t e.key && !masked s e.key)) } })) ∧
      (32 ≤ m.toNat → exec (.setEvents tag [b, m]) s = .next (makeReply tag false .badArg [b, 0] (s.taken rest))))

/-! ### Region requests -/

/-- DEFINE (R43 to R45): its parameters in range, in UNUSED or IDLE, it sets them with the capture fields at their starting
values; out of range it is BAD_ARG, and in any other state BAD_STATE, changing nothing. -/
def Obligations.DefineSetsTheParameters : Prop :=
  ∀ (s : State) (tag : Byte) (rest : List Request) (r : RegionId) (b c policy : Byte) (quota anchor post mark : Nat),
    b.toNat = r.val → quota < 65536 → anchor < 65536 → post < 4294967296 → mark < 16777216 →
    let body := [b, c] ++ beBytes 2 quota ++ beBytes 2 anchor ++ beBytes 4 post ++ [policy] ++ beBytes 3 mark
    Requested s 0x10 tag body rest →
    let g := s.region r
    let ready := g.state = .unused ∨ g.state = .idle
    let inRange := 4 ≤ c.toNat ∧ c.toNat ≤ 12 ∧ 2 ≤ quota ∧ quota ≤ 2048 ∧ anchor + 2 ≤ quota ∧ 1 ≤ post ∧
      (policy = 0 ∨ policy = 1)
    (ready → inRange → exec (.define tag body) s = .next (makeReply tag false .ok (body ++ beBytes 2 (4096 / 2 ^ c.toNat))
      ((s.taken rest).setRegion r { g with
        state := .idle
        params := some ⟨c.toNat, quota, anchor, post, if policy = 0 then .holdWriter else .breakPin, mark⟩
        committed := 0, trigger := none, stopCause := none, rollingCount := 0, wrapLength := none
        oldest := anchor * (4096 / 2 ^ c.toNat), faultPage := none }))) ∧
    (ready → ¬inRange → exec (.define tag body) s =
      .next (makeReply tag false .badArg (b :: List.replicate 15 0) (s.taken rest))) ∧
    (¬ready → exec (.define tag body) s = .next (makeReply tag false .badState (b :: List.replicate 15 0) (s.taken rest)))

/-- ARM (R46, R47, R23, R109): in IDLE, not directory-suspect, with A + 2 pages available, it reserves A + 2 pages, starts the
capture fields, makes the region ARMED and the bound port's writer RUNNING; else the first test that fails answers it. That a
POOL_LOW of the reservation starts before the reply is the model's choice (notes/assumptions/11.md). -/
def Obligations.ArmStartsTheCapture : Prop :=
  ∀ (s : State) (tag b : Byte) (rest : List Request) (r : RegionId), b.toNat = r.val → Requested s 0x11 tag [b] rest →
    let g := s.region r
    let n := g.anchor + 2
    let t := evaluateNotice { s.taken rest with alloc := { s.alloc with
      reservations := s.alloc.reservations.set r.val n r.isLt, reservedTotal := s.alloc.reservedTotal + n } }
    let u := t.setRegion r { g with
      state := .armed, committed := 0, trigger := none, stopCause := none, rollingCount := 0, wrapLength := none
      oldest := g.anchor * g.rpp, faultPage := none }
    let body := [b] ++ beBytes 2 n ++ beBytes 2 (s.alloc.available - n)
    let passes := g.state = .idle ∧ g.suspect = false ∧ n ≤ s.alloc.available
    (passes → g.boundPort = none → exec (.arm tag [b]) s = .next (makeReply tag false .ok body (storeGrant u))) ∧
    (passes → ∀ p, g.boundPort = some p → exec (.arm tag [b]) s = .next (makeReply tag false .ok body
      (storeGrant (takeHead p (u.setPort p { s.port p with writer := .running, fillPage := none, claim := none }))))) ∧
    (g.state ≠ .idle → exec (.arm tag [b]) s = .next (makeReply tag false .badState [b, 0, 0, 0, 0] (s.taken rest))) ∧
    (g.state = .idle → g.suspect = true →
      exec (.arm tag [b]) s = .next (makeReply tag false .mediaError [b, 0, 0, 0, 0] (s.taken rest))) ∧
    (g.state = .idle → g.suspect = false → s.alloc.available < n → exec (.arm tag [b]) s =
      .next (makeReply tag false .noPages ([b] ++ beBytes 2 n ++ beBytes 2 s.alloc.available) (s.taken rest)))

/-- TRIGGER (R48, R49): in ARMED the trigger is the committed count with source HOST, and TRIGGERED is raised; in TRIGGERED the
trigger that stands is answered with the earlier flag; in any other state it is BAD_STATE. That TRIGGERED starts before the reply
is the model's choice (notes/assumptions/11.md), and so are the zeros of a refusal (16.md) and of unnamed flag bits (28.md). -/
def Obligations.TriggerNamesTheRecord : Prop :=
  ∀ (s : State) (tag b : Byte) (rest : List Request) (r : RegionId), b.toNat = r.val → Requested s 0x12 tag [b] rest →
    let g := s.region r
    (g.state = .armed → exec (.trigger tag [b]) s = .next (makeReply tag false .ok ([b, 2] ++ beBytes 6 g.committed ++ [0])
      (raiseEvent (.triggered r) (.triggered g.committed .host)
        ((s.taken rest).setRegion r { g with state := .triggered, trigger := some ⟨g.committed, .host⟩ })))) ∧
    (g.state = .triggered → ∀ k source, g.trigger = some ⟨k, source⟩ → exec (.trigger tag [b]) s =
      .next (makeReply tag false .ok ([b, 3] ++ beBytes 6 k ++ [source.code]) (s.taken rest))) ∧
    (g.capturing = false →
      exec (.trigger tag [b]) s = .next (makeReply tag false .badState (b :: List.replicate 8 0) (s.taken rest)))

/-- STOP (R52, R53): a capturing region stops with cause HOST; a STOPPED one answers how its capture ended, changing nothing; in
any other state it is BAD_STATE. That STOPPED starts before the reply is the model's choice (notes/assumptions/11.md), and so are
the zeros of a refusal (16.md) and of unnamed flag bits (28.md). -/
def Obligations.StopEndsTheCapture : Prop :=
  ∀ (s : State) (tag b : Byte) (rest : List Request) (r : RegionId), b.toNat = r.val → Requested s 0x13 tag [b] rest →
    let g := s.region r
    let body := fun cause : Option StopCause =>
      [b, if g.trigger.isSome then 2 else 0, stopCauseCode cause] ++ beBytes 6 g.committed
        ++ beBytes 6 (match g.trigger with | some t => t.seq | none => 0)
    (g.capturing = true → exec (.stop tag [b]) s =
      .next (makeReply tag false .ok (body (some .host)) (stopRegion r .host (s.taken rest)))) ∧
    (g.state = .stopped → exec (.stop tag [b]) s = .next (makeReply tag false .ok (body g.stopCause) (s.taken rest))) ∧
    (g.capturing = false → g.state ≠ .stopped →
      exec (.stop tag [b]) s = .next (makeReply tag false .badState (b :: List.replicate 14 0) (s.taken rest)))

/-- RELEASE (R59, R60, R30): a STOPPED or FAULTED region with no window, no work of its writer and no other walk becomes
RELEASING, its cache entries purged and the walk started; else it is BUSY. IDLE answers with no pages, RELEASING is BUSY, and
any other state is BAD_STATE. -/
def Obligations.ReleaseStartsTheWalk : Prop :=
  ∀ (s : State) (tag b : Byte) (rest : List Request) (r : RegionId), b.toNat = r.val → Requested s 0x14 tag [b] rest →
    let g := s.region r
    let ended := g.state = .stopped ∨ g.state = .faulted
    let busy := (∃ w, (s.window w).state ≠ .closed ∧ (s.window w).region = r) ∨
      (∃ p, g.boundPort = some p ∧ ((s.port p).inFlight.isSome = true ∨ ∃ c, (s.port p).claim = some c ∧ c.stage ≠ .pinHold)) ∨
      ∃ q page n m walkTag stale, s.alloc.scanner = .releaseWalk q page n m walkTag stale
    let answered := fun status => Host.Outcome.next (makeReply tag false status [b, 0, 0, 0, 0] (s.taken rest))
    (g.state = .idle → exec (.release tag [b]) s = answered .ok) ∧
    (g.state = .releasing → exec (.release tag [b]) s = answered .busy) ∧
    (ended → busy → exec (.release tag [b]) s = answered .busy) ∧
    (g.state = .unused ∨ g.capturing = true → exec (.release tag [b]) s = answered .badState) ∧
    (ended → ¬busy → ∃ cache : Cache,
      (∀ i e, cache.entries.get i = some e ↔ s.cache.entries.get i = some e ∧ e.region ≠ r) ∧
      cache.victim = s.cache.victim ∧ cache.hits = s.cache.hits ∧ cache.misses = s.cache.misses ∧
      exec (.release tag [b]) s = .next ({ s.taken rest with
        cache := cache
        alloc := { s.alloc with scanner := .releaseWalk r 16 0 0 tag false } }.setRegion r { g with state := .releasing }))

/-- QUERY (R65), PORT_QUERY (R108) and WINDOW_QUERY (R136) change nothing but the queue of requests: their reply bodies field
by field, a field that is absent sent as zero. A region's size code, quota, anchor, post count, pin policy and mark interval are
those of the parameters it holds (R40, R45), its record size 2^c and its rpp 4096 / 2^c (R69). The zeros of the flag bits that 11.5 does not name are the model's choice
(notes/assumptions/28.md). -/
def Obligations.QueriesAnswer : Prop :=
  (∀ (g : Region) (p : Params), g.params = some p →
    g.sizeCode = p.sizeCode ∧ g.quota = p.quota ∧ g.anchor = p.anchor ∧ g.postCount = p.postCount ∧
    g.pinPolicy = p.pinPolicy ∧ g.markInterval = p.markInterval ∧ g.recSize = 2 ^ p.sizeCode ∧
    g.rpp = 4096 / 2 ^ p.sizeCode) ∧
  ∀ (s : State) (tag b : Byte) (rest : List Request),
    (∀ r : RegionId, b.toNat = r.val → Requested s 0x15 tag [b] rest →
      let g := s.region r
      let param := fun (f : Params → Nat) => match g.params with | some p => f p | none => 0
      let flags : Byte := (if g.params.isSome then 1 else 0) + (if g.trigger.isSome then 2 else 0)
        + (if g.wrapLength.isSome then 4 else 0) + (if g.faultPage.isSome then 8 else 0) + (if g.suspect then 16 else 0)
      exec (.query tag [b]) s = .next (makeReply tag false .ok
        ([b, g.state.code, flags, BitVec.ofNat 8 (param (·.sizeCode))] ++ beBytes 2 (param (·.quota))
          ++ beBytes 2 (param (·.anchor)) ++ beBytes 4 (param (·.postCount))
          ++ [match g.params with | some p => p.pinPolicy.code | none => 0] ++ beBytes 3 (param (·.markInterval))
          ++ beBytes 2 (param (fun p => 4096 / 2 ^ p.sizeCode))
          ++ [g.eventMask.setWidth 8, match g.boundPort with | none => 0xFF | some p => BitVec.ofNat 8 p.val]
          ++ beBytes 6 g.committed ++ beBytes 6 (match g.trigger with | some t => t.seq | none => 0)
          ++ [match g.trigger with | some t => t.source.code | none => 0, stopCauseCode g.stopCause]
          ++ beBytes 2 g.rollingCount ++ beBytes 2 (g.wrapLength.getD 0) ++ beBytes 6 g.oldest ++ beBytes 2 (s.owned r)
          ++ beBytes 2 (s.reservation r) ++ [BitVec.ofNat 8 (g.faultPage.getD 0), BitVec.ofNat 8
            ((List.finRange 24).countP (fun i => decide ((s.cache.entries.get i).map (·.region) = some r)))])
        (s.taken rest))) ∧
    (∀ p : PortId, b.toNat = p.val → Requested s 0x21 tag [b] rest →
      let q := s.port p
      let flags : Byte := (if q.markerEnable then 1 else 0) + (if q.overrunEnable then 2 else 0)
        + (if q.halted then 4 else 0) + (if q.assembly.isSome then 8 else 0) + (if q.inFlight.isSome then 16 else 0)
        + (if q.claim.isSome then 32 else 0)
      let count := fun n => beBytes 4 (min 4294967295 n)
      exec (.portQuery tag [b]) s = .next (makeReply tag false .ok
        ([b, match q.binding with | none => 0xFF | some r => BitVec.ofNat 8 r.val, flags, q.writer.code]
          ++ beBytes 2 (match q.assembly with | some a => a.bytes.length | none => 0)
          ++ beBytes 2 (match q.assembly with | some a => a.size | none => 0) ++ beBytes 6 (q.inFlight.getD 0)
          ++ beBytes 6 (match q.claim with | some c => c.newPage | none => 0)
          ++ [claimStageCode (q.claim.map (·.stage)), BitVec.ofNat 8 q.staging.length]
          ++ count q.counts.arrived ++ count q.counts.stored ++ count q.counts.dropIdle ++ count q.counts.dropFull
          ++ count q.counts.dropShort ++ count q.counts.dropFlush) (s.taken rest))) ∧
    (∀ w : WindowId, b.toNat = w.val → Requested s 0x33 tag [b] rest →
      let x := s.window w
      let flags : Byte := (if x.fetch.isSome then 1 else 0) + (if x.closeTag.isSome then 2 else 0)
      let ofFetch := fun (f : Fetch → Nat) => match x.fetch with | some y => f y | none => 0
      exec (.windowQuery tag [b]) s = .next (makeReply tag false .ok
        ([b, x.state.code, BitVec.ofNat 8 x.region.val] ++ beBytes 6 x.first ++ beBytes 6 x.last ++ beBytes 6 x.cursor
          ++ [x.pin.code, flags, match x.fetch with | some f => f.tag | none => 0]
          ++ beBytes 2 (ofFetch (·.asked)) ++ beBytes 2 (ofFetch (·.total)) ++ beBytes 2 (ofFetch (·.gathered.length))
          ++ [match x.closeTag with | some c => c.tag | none => 0]) (s.taken rest)))

/-! ### Port and window requests -/

/-- BIND (R106, R107): the first test that holds refuses it; passed, the region's bound port follows the binding, the enables
are set, the partial record is discarded, the six counts are 0 and the writer is IDLE with no fill page and no claim. That the
enables are tested for range before the states (R182), and that a refusal carries the port number and zeros (R184), is the
model's reading (notes/assumptions/16.md). -/
def Obligations.BindMovesThePort : Prop :=
  ∀ (s : State) (tag b bound enables : Byte) (rest : List Request) (p : PortId), b.toNat = p.val →
    Requested s 0x20 tag [b, bound, enables] rest →
    let q := s.port p
    let refused := fun status => Host.Outcome.next (makeReply tag false status [b, 0, 0] (s.taken rest))
    (16 ≤ bound.toNat ∧ bound ≠ 0xFF ∨ 4 ≤ enables.toNat → exec (.bindPort tag [b, bound, enables]) s = refused .badArg) ∧
    (∀ target : Option RegionId, (target = none ∧ bound = 0xFF ∨ ∃ r, target = some r ∧ bound.toNat = r.val) → enables.toNat < 4 →
      let presentBusy := ∃ r, q.binding = some r ∧ (s.region r).capturing = true
      let targetUnready := ∃ r, target = some r ∧ ((s.region r).capturing = true ∨ (s.region r).state = .unused)
      let targetTaken := ∃ r x, target = some r ∧ (s.region r).boundPort = some x ∧ x ≠ p
      let working := q.inFlight.isSome = true ∨ ∃ c, q.claim = some c ∧ c.stage ≠ .pinHold
      (presentBusy ∨ targetUnready → exec (.bindPort tag [b, bound, enables]) s = refused .badState) ∧
      (¬(presentBusy ∨ targetUnready) → targetTaken ∨ working →
        exec (.bindPort tag [b, bound, enables]) s = refused .busy) ∧
      (¬(presentBusy ∨ targetUnready) → ¬(targetTaken ∨ working) → ∃ regions : Vector Region 16,
        (∀ r, target = some r → regions.get r = { s.region r with boundPort := some p }) ∧
        (∀ r, target ≠ some r → q.binding = some r → regions.get r = { s.region r with boundPort := none }) ∧
        (∀ r, target ≠ some r → q.binding ≠ some r → regions.get r = s.region r) ∧
        exec (.bindPort tag [b, bound, enables]) s = .next (makeReply tag false .ok [b, bound, enables]
          ({ s.taken rest with regions := regions }.setPort p { q with
            binding := target, markerEnable := enables.getLsbD 0, overrunEnable := enables.getLsbD 1
            assembly := none, counts := ⟨0, 0, 0, 0, 0, 0⟩, writer := .idle, fillPage := none, claim := none }))))

/-- OPEN (R122 to R124, R184): the first test that holds refuses it with the numbers as received; passed, the window is OPEN on
the region with its range, its cursor at first and its pin STANDING or NONE. That the pin flag is tested for range with the
numbers, before the states (R182), is the model's reading (notes/assumptions/16.md). -/
def Obligations.OpenSetsTheWindow : Prop :=
  ∀ (s : State) (tag b c pin : Byte) (rest : List Request) (first last : Nat), first < 281474976710656 →
    last < 281474976710656 →
    let body := [b, c] ++ beBytes 6 first ++ beBytes 6 last ++ [pin]
    Requested s 0x30 tag body rest →
    let answered := fun (status : Status) (cursor : Nat) (held : Byte) (committed oldest : Nat) (t : State) =>
      Host.Outcome.next (makeReply tag false status ([b, c] ++ beBytes 6 first ++ beBytes 6 last ++ beBytes 6 cursor ++ [held]
        ++ beBytes 6 committed ++ beBytes 6 oldest) t)
    (16 ≤ c.toNat → exec (.openWindow tag body) s = answered .badArg 0 0 0 0 (s.taken rest)) ∧
    (∀ r : RegionId, c.toNat = r.val →
      let g := s.region r
      let refused := fun status => answered status 0 0 g.committed g.oldest (s.taken rest)
      (4 ≤ b.toNat ∨ 2 ≤ pin.toNat → exec (.openWindow tag body) s = refused .badArg) ∧
      (∀ w : WindowId, b.toNat = w.val → pin.toNat < 2 →
        let serves := g.capturing = true ∨ g.state = .stopped
        let lost := pin = 1 ∧ ∃ k, first ≤ k ∧ k ≤ last ∧ k < g.committed ∧ g.anchor * g.rpp ≤ k ∧ k < g.oldest
        let early := pin = 1 ∧ g.committed ≤ last
        let closed := (s.window w).state = .closed
        (¬closed → exec (.openWindow tag body) s = refused .busy) ∧
        (closed → g.state = .faulted → exec (.openWindow tag body) s = refused .faulted) ∧
        (closed → g.state ≠ .faulted → ¬serves → exec (.openWindow tag body) s = refused .badState) ∧
        (closed → serves → last < first → exec (.openWindow tag body) s = refused .badArg) ∧
        (closed → serves → first ≤ last → lost → exec (.openWindow tag body) s = refused .expired) ∧
        (closed → serves → first ≤ last → ¬lost → early → exec (.openWindow tag body) s = refused .notYet) ∧
        (closed → serves → first ≤ last → ¬lost → ¬early → exec (.openWindow tag body) s =
          answered .ok first pin g.committed g.oldest ((s.taken rest).setWindow w
            { state := .opened, region := r, first := first, last := last, cursor := first,
              pin := (if pin = 1 then .standing else .none), fetch := none, closeTag := none }))))

/-- FETCH (R126, R127): the first test that holds refuses it with an empty list of records; passed, a fetch of N records is in
flight from the cursor, N the least of the count, rpp, the range's rest, the committed rest and the rest of the retained
interval. -/
def Obligations.FetchGathersTheLeastOfFive : Prop :=
  ∀ (s : State) (tag b : Byte) (rest : List Request) (w : WindowId) (count : Nat), b.toNat = w.val → count < 65536 →
    Requested s 0x31 tag ([b] ++ beBytes 2 count) rest →
    let x := s.window w
    let g := s.region x.region
    let k := x.cursor
    let split := g.anchor * g.rpp
    let kept := k < split ∨ g.oldest ≤ k
    let refused := fun status => Host.Outcome.next (makeReply tag false status
      ([b, BitVec.ofNat 8 (if x.state = .closed then 0 else g.sizeCode), 0, 0] ++ beBytes 6 k ++ beBytes 6 k) (s.taken rest))
    let step := exec (.fetch tag ([b] ++ beBytes 2 count)) s
    (x.state = .closed → step = refused .badState) ∧
    (x.state ≠ .closed → x.fetch.isSome = true → step = refused .busy) ∧
    (x.state ≠ .closed → x.fetch = none → count = 0 ∨ 256 < count → step = refused .badArg) ∧
    (x.state ≠ .closed → x.fetch = none → 1 ≤ count → count ≤ 256 →
      (g.state = .faulted → step = refused .faulted) ∧
      (g.state ≠ .faulted → x.last < k → step = refused .atEnd) ∧
      (g.state ≠ .faulted → k ≤ x.last → g.committed ≤ k → g.capturing = true → step = refused .notYet) ∧
      (g.state ≠ .faulted → k ≤ x.last → g.committed ≤ k → g.capturing = false → step = refused .atEnd) ∧
      (g.state ≠ .faulted → k ≤ x.last → k < g.committed → ¬kept → step = refused .expired) ∧
      (g.state ≠ .faulted → k ≤ x.last → k < g.committed → kept →
        let bound := if k < split ∧ g.oldest ≠ split then split else g.committed
        ∀ n, n ≤ count ∧ n ≤ g.rpp ∧ k + n ≤ x.last + 1 ∧ k + n ≤ g.committed ∧ k + n ≤ bound →
          (n = count ∨ n = g.rpp ∨ k + n = x.last + 1 ∨ k + n = g.committed ∨ k + n = bound) →
          let f : Fetch := ⟨tag, false, count, n, k, [], k, .lookup, none⟩
          step = .next (storeGrant (fetchNext w f (s.taken rest)))))

/-- CLOSE (R134, R135, R140): of an OPEN window with no fetch it closes the window, sends the pin-end notice of a STANDING pin
and answers; with a fetch in flight the window is CLOSING, the fetch marked to end, and the answer waits; of a CLOSED window it
answers OK, of a CLOSING one BUSY. That the reply of a CLOSED window carries cursor 0 and pin NONE (R184) is the model's reading
(notes/assumptions/16.md), and that an event of the pin-end notice starts before the reply is its choice (11.md). -/
def Obligations.CloseEndsTheWindow : Prop :=
  ∀ (s : State) (tag b : Byte) (rest : List Request) (w : WindowId), b.toNat = w.val → Requested s 0x32 tag [b] rest →
    let x := s.window w
    let shut := (s.taken rest).setWindow w { x with state := .closed, pin := .none, closeTag := none }
    (x.state = .closed →
      exec (.closeWindow tag [b]) s = .next (makeReply tag false .ok (b :: List.replicate 7 0) (s.taken rest))) ∧
    (x.state = .closing →
      exec (.closeWindow tag [b]) s = .next (makeReply tag false .busy (b :: List.replicate 7 0) (s.taken rest))) ∧
    (x.state = .opened → ∀ f, x.fetch = some f → exec (.closeWindow tag [b]) s = .next ((s.taken rest).setWindow w { x with
      state := .closing, closeTag := some ⟨tag, false⟩
      fetch := some { f with endCause := some (f.endCause.getD .close) } })) ∧
    (x.state = .opened → x.fetch = none → exec (.closeWindow tag [b]) s = .next (makeReply tag false .ok
      ([b] ++ beBytes 6 x.cursor ++ [x.pin.code])
      (storeGrant (if x.pin = .standing then pinEndNotice x.region shut else shut))))

/-! ### Invariants that every step keeps -/

/-- Every step keeps the memory and the list of words in error in their canonical forms, and the fetch-wait count within its
guard (R14). -/
def Obligations.StepsKeepTheStoreInForm : Prop :=
  ∀ s t : State, step s = .next t →
    (s.memoryCanonical → t.memoryCanonical) ∧ (s.fetchWaitBounded → t.fetchWaitBounded)

/-- Every step keeps the keys of pending events distinct (R155), so that at most 91 events are pending, and the pairs of valid
slot cache entries distinct (R85). -/
def Obligations.StepsKeepKeysDistinct : Prop :=
  (∀ s t : State, step s = .next t →
    (s.keysDistinct → t.keysDistinct) ∧ (s.cache.distinct → t.cache.distinct)) ∧
  ∀ s : State, s.keysDistinct → s.events.entries.length ≤ 91

/-- Every step keeps each data page in exactly one place (R19, R21). -/
def Obligations.StepsKeepPagesInOnePlace : Prop :=
  ∀ s t : State, s.threePlaces → step s = .next t → t.threePlaces

/-- Every step keeps the reserved total the sum of the reservations and at most the pool length (R22), and so Available is
never negative. -/
def Obligations.StepsKeepReservationsBacked : Prop :=
  ∀ s t : State, s.reservationsSum → step s = .next t → t.reservationsSum

/-- Every step keeps each port's counts in balance (R104), the bindings mirrored (R40), and each record write in flight issued
once (R112). -/
def Obligations.StepsKeepPortAccounts : Prop :=
  ∀ s t : State, s.portAccounts → step s = .next t → t.portAccounts

/-- Every step keeps the outstanding count the number of accepted requests whose reply has not started, at most 8 (R174), and
the window records coherent (R121). -/
def Obligations.StepsKeepOutstandingAccounts : Prop :=
  ∀ s t : State, s.outstandingAccounts → step s = .next t → t.outstandingAccounts

/-- The machine right after reset meets every invariant above. -/
def Obligations.ResetMeetsTheInvariants : Prop :=
  State.reset.memoryCanonical ∧ State.reset.fetchWaitBounded ∧ State.reset.keysDistinct ∧ State.reset.cache.distinct ∧
  State.reset.threePlaces ∧ State.reset.reservationsSum ∧ State.reset.portAccounts ∧ State.reset.outstandingAccounts
end

