-- ==== Sys2Proof/Laws/State.lean ====
section
/-! SUPPORT. One lemma per field per update of the state, and reading back one region, port, window, reservation or owned-page
count after an update of one. -/

namespace Sys2Proof.Machine

variable (s : State)

/-! #### setLink -/

@[simp] theorem State.setLink_pending (x : Link) : (s.setLink x).pending = s.pending := rfl
@[simp] theorem State.setLink_freeCount (x : Link) : (s.setLink x).freeCount = s.freeCount := rfl
@[simp] theorem State.setLink_device (x : Link) : (s.setLink x).device = s.device := rfl
@[simp] theorem State.setLink_restart (x : Link) : (s.setLink x).restart = s.restart := rfl
@[simp] theorem State.setLink_link (x : Link) : (s.setLink x).link = x := rfl
@[simp] theorem State.setLink_events (x : Link) : (s.setLink x).events = s.events := rfl
@[simp] theorem State.setLink_store (x : Link) : (s.setLink x).store = s.store := rfl
@[simp] theorem State.setLink_alloc (x : Link) : (s.setLink x).alloc = s.alloc := rfl
@[simp] theorem State.setLink_cache (x : Link) : (s.setLink x).cache = s.cache := rfl
@[simp] theorem State.setLink_regions (x : Link) : (s.setLink x).regions = s.regions := rfl
@[simp] theorem State.setLink_ports (x : Link) : (s.setLink x).ports = s.ports := rfl
@[simp] theorem State.setLink_windows (x : Link) : (s.setLink x).windows = s.windows := rfl

/-! #### setEvents -/

@[simp] theorem State.setEvents_pending (x : EventQueue) : (s.setEvents x).pending = s.pending := rfl
@[simp] theorem State.setEvents_freeCount (x : EventQueue) : (s.setEvents x).freeCount = s.freeCount := rfl
@[simp] theorem State.setEvents_device (x : EventQueue) : (s.setEvents x).device = s.device := rfl
@[simp] theorem State.setEvents_restart (x : EventQueue) : (s.setEvents x).restart = s.restart := rfl
@[simp] theorem State.setEvents_link (x : EventQueue) : (s.setEvents x).link = s.link := rfl
@[simp] theorem State.setEvents_events (x : EventQueue) : (s.setEvents x).events = x := rfl
@[simp] theorem State.setEvents_store (x : EventQueue) : (s.setEvents x).store = s.store := rfl
@[simp] theorem State.setEvents_alloc (x : EventQueue) : (s.setEvents x).alloc = s.alloc := rfl
@[simp] theorem State.setEvents_cache (x : EventQueue) : (s.setEvents x).cache = s.cache := rfl
@[simp] theorem State.setEvents_regions (x : EventQueue) : (s.setEvents x).regions = s.regions := rfl
@[simp] theorem State.setEvents_ports (x : EventQueue) : (s.setEvents x).ports = s.ports := rfl
@[simp] theorem State.setEvents_windows (x : EventQueue) : (s.setEvents x).windows = s.windows := rfl

/-! #### setStore -/

@[simp] theorem State.setStore_pending (x : Store) : (s.setStore x).pending = s.pending := rfl
@[simp] theorem State.setStore_freeCount (x : Store) : (s.setStore x).freeCount = s.freeCount := rfl
@[simp] theorem State.setStore_device (x : Store) : (s.setStore x).device = s.device := rfl
@[simp] theorem State.setStore_restart (x : Store) : (s.setStore x).restart = s.restart := rfl
@[simp] theorem State.setStore_link (x : Store) : (s.setStore x).link = s.link := rfl
@[simp] theorem State.setStore_events (x : Store) : (s.setStore x).events = s.events := rfl
@[simp] theorem State.setStore_store (x : Store) : (s.setStore x).store = x := rfl
@[simp] theorem State.setStore_alloc (x : Store) : (s.setStore x).alloc = s.alloc := rfl
@[simp] theorem State.setStore_cache (x : Store) : (s.setStore x).cache = s.cache := rfl
@[simp] theorem State.setStore_regions (x : Store) : (s.setStore x).regions = s.regions := rfl
@[simp] theorem State.setStore_ports (x : Store) : (s.setStore x).ports = s.ports := rfl
@[simp] theorem State.setStore_windows (x : Store) : (s.setStore x).windows = s.windows := rfl

/-! #### setAlloc -/

@[simp] theorem State.setAlloc_pending (x : Allocator) : (s.setAlloc x).pending = s.pending := rfl
@[simp] theorem State.setAlloc_freeCount (x : Allocator) : (s.setAlloc x).freeCount = s.freeCount := rfl
@[simp] theorem State.setAlloc_device (x : Allocator) : (s.setAlloc x).device = s.device := rfl
@[simp] theorem State.setAlloc_restart (x : Allocator) : (s.setAlloc x).restart = s.restart := rfl
@[simp] theorem State.setAlloc_link (x : Allocator) : (s.setAlloc x).link = s.link := rfl
@[simp] theorem State.setAlloc_events (x : Allocator) : (s.setAlloc x).events = s.events := rfl
@[simp] theorem State.setAlloc_store (x : Allocator) : (s.setAlloc x).store = s.store := rfl
@[simp] theorem State.setAlloc_alloc (x : Allocator) : (s.setAlloc x).alloc = x := rfl
@[simp] theorem State.setAlloc_cache (x : Allocator) : (s.setAlloc x).cache = s.cache := rfl
@[simp] theorem State.setAlloc_regions (x : Allocator) : (s.setAlloc x).regions = s.regions := rfl
@[simp] theorem State.setAlloc_ports (x : Allocator) : (s.setAlloc x).ports = s.ports := rfl
@[simp] theorem State.setAlloc_windows (x : Allocator) : (s.setAlloc x).windows = s.windows := rfl

/-! #### setCache -/

@[simp] theorem State.setCache_pending (x : Cache) : (s.setCache x).pending = s.pending := rfl
@[simp] theorem State.setCache_freeCount (x : Cache) : (s.setCache x).freeCount = s.freeCount := rfl
@[simp] theorem State.setCache_device (x : Cache) : (s.setCache x).device = s.device := rfl
@[simp] theorem State.setCache_restart (x : Cache) : (s.setCache x).restart = s.restart := rfl
@[simp] theorem State.setCache_link (x : Cache) : (s.setCache x).link = s.link := rfl
@[simp] theorem State.setCache_events (x : Cache) : (s.setCache x).events = s.events := rfl
@[simp] theorem State.setCache_store (x : Cache) : (s.setCache x).store = s.store := rfl
@[simp] theorem State.setCache_alloc (x : Cache) : (s.setCache x).alloc = s.alloc := rfl
@[simp] theorem State.setCache_cache (x : Cache) : (s.setCache x).cache = x := rfl
@[simp] theorem State.setCache_regions (x : Cache) : (s.setCache x).regions = s.regions := rfl
@[simp] theorem State.setCache_ports (x : Cache) : (s.setCache x).ports = s.ports := rfl
@[simp] theorem State.setCache_windows (x : Cache) : (s.setCache x).windows = s.windows := rfl

/-! #### setDevice -/

@[simp] theorem State.setDevice_pending (x : DeviceState) : (s.setDevice x).pending = s.pending := rfl
@[simp] theorem State.setDevice_freeCount (x : DeviceState) : (s.setDevice x).freeCount = s.freeCount := rfl
@[simp] theorem State.setDevice_device (x : DeviceState) : (s.setDevice x).device = x := rfl
@[simp] theorem State.setDevice_restart (x : DeviceState) : (s.setDevice x).restart = s.restart := rfl
@[simp] theorem State.setDevice_link (x : DeviceState) : (s.setDevice x).link = s.link := rfl
@[simp] theorem State.setDevice_events (x : DeviceState) : (s.setDevice x).events = s.events := rfl
@[simp] theorem State.setDevice_store (x : DeviceState) : (s.setDevice x).store = s.store := rfl
@[simp] theorem State.setDevice_alloc (x : DeviceState) : (s.setDevice x).alloc = s.alloc := rfl
@[simp] theorem State.setDevice_cache (x : DeviceState) : (s.setDevice x).cache = s.cache := rfl
@[simp] theorem State.setDevice_regions (x : DeviceState) : (s.setDevice x).regions = s.regions := rfl
@[simp] theorem State.setDevice_ports (x : DeviceState) : (s.setDevice x).ports = s.ports := rfl
@[simp] theorem State.setDevice_windows (x : DeviceState) : (s.setDevice x).windows = s.windows := rfl

/-! #### setRestart -/

@[simp] theorem State.setRestart_pending (x : Option RunningRestart) : (s.setRestart x).pending = s.pending := rfl
@[simp] theorem State.setRestart_freeCount (x : Option RunningRestart) : (s.setRestart x).freeCount = s.freeCount := rfl
@[simp] theorem State.setRestart_device (x : Option RunningRestart) : (s.setRestart x).device = s.device := rfl
@[simp] theorem State.setRestart_restart (x : Option RunningRestart) : (s.setRestart x).restart = x := rfl
@[simp] theorem State.setRestart_link (x : Option RunningRestart) : (s.setRestart x).link = s.link := rfl
@[simp] theorem State.setRestart_events (x : Option RunningRestart) : (s.setRestart x).events = s.events := rfl
@[simp] theorem State.setRestart_store (x : Option RunningRestart) : (s.setRestart x).store = s.store := rfl
@[simp] theorem State.setRestart_alloc (x : Option RunningRestart) : (s.setRestart x).alloc = s.alloc := rfl
@[simp] theorem State.setRestart_cache (x : Option RunningRestart) : (s.setRestart x).cache = s.cache := rfl
@[simp] theorem State.setRestart_regions (x : Option RunningRestart) : (s.setRestart x).regions = s.regions := rfl
@[simp] theorem State.setRestart_ports (x : Option RunningRestart) : (s.setRestart x).ports = s.ports := rfl
@[simp] theorem State.setRestart_windows (x : Option RunningRestart) : (s.setRestart x).windows = s.windows := rfl

/-! #### setRegions -/

@[simp] theorem State.setRegions_pending (x : Vector Region 16) : (s.setRegions x).pending = s.pending := rfl
@[simp] theorem State.setRegions_freeCount (x : Vector Region 16) : (s.setRegions x).freeCount = s.freeCount := rfl
@[simp] theorem State.setRegions_device (x : Vector Region 16) : (s.setRegions x).device = s.device := rfl
@[simp] theorem State.setRegions_restart (x : Vector Region 16) : (s.setRegions x).restart = s.restart := rfl
@[simp] theorem State.setRegions_link (x : Vector Region 16) : (s.setRegions x).link = s.link := rfl
@[simp] theorem State.setRegions_events (x : Vector Region 16) : (s.setRegions x).events = s.events := rfl
@[simp] theorem State.setRegions_store (x : Vector Region 16) : (s.setRegions x).store = s.store := rfl
@[simp] theorem State.setRegions_alloc (x : Vector Region 16) : (s.setRegions x).alloc = s.alloc := rfl
@[simp] theorem State.setRegions_cache (x : Vector Region 16) : (s.setRegions x).cache = s.cache := rfl
@[simp] theorem State.setRegions_regions (x : Vector Region 16) : (s.setRegions x).regions = x := rfl
@[simp] theorem State.setRegions_ports (x : Vector Region 16) : (s.setRegions x).ports = s.ports := rfl
@[simp] theorem State.setRegions_windows (x : Vector Region 16) : (s.setRegions x).windows = s.windows := rfl

/-! #### setPorts -/

@[simp] theorem State.setPorts_pending (x : Vector Port 4) : (s.setPorts x).pending = s.pending := rfl
@[simp] theorem State.setPorts_freeCount (x : Vector Port 4) : (s.setPorts x).freeCount = s.freeCount := rfl
@[simp] theorem State.setPorts_device (x : Vector Port 4) : (s.setPorts x).device = s.device := rfl
@[simp] theorem State.setPorts_restart (x : Vector Port 4) : (s.setPorts x).restart = s.restart := rfl
@[simp] theorem State.setPorts_link (x : Vector Port 4) : (s.setPorts x).link = s.link := rfl
@[simp] theorem State.setPorts_events (x : Vector Port 4) : (s.setPorts x).events = s.events := rfl
@[simp] theorem State.setPorts_store (x : Vector Port 4) : (s.setPorts x).store = s.store := rfl
@[simp] theorem State.setPorts_alloc (x : Vector Port 4) : (s.setPorts x).alloc = s.alloc := rfl
@[simp] theorem State.setPorts_cache (x : Vector Port 4) : (s.setPorts x).cache = s.cache := rfl
@[simp] theorem State.setPorts_regions (x : Vector Port 4) : (s.setPorts x).regions = s.regions := rfl
@[simp] theorem State.setPorts_ports (x : Vector Port 4) : (s.setPorts x).ports = x := rfl
@[simp] theorem State.setPorts_windows (x : Vector Port 4) : (s.setPorts x).windows = s.windows := rfl

/-! #### setWindows -/

@[simp] theorem State.setWindows_pending (x : Vector Window 4) : (s.setWindows x).pending = s.pending := rfl
@[simp] theorem State.setWindows_freeCount (x : Vector Window 4) : (s.setWindows x).freeCount = s.freeCount := rfl
@[simp] theorem State.setWindows_device (x : Vector Window 4) : (s.setWindows x).device = s.device := rfl
@[simp] theorem State.setWindows_restart (x : Vector Window 4) : (s.setWindows x).restart = s.restart := rfl
@[simp] theorem State.setWindows_link (x : Vector Window 4) : (s.setWindows x).link = s.link := rfl
@[simp] theorem State.setWindows_events (x : Vector Window 4) : (s.setWindows x).events = s.events := rfl
@[simp] theorem State.setWindows_store (x : Vector Window 4) : (s.setWindows x).store = s.store := rfl
@[simp] theorem State.setWindows_alloc (x : Vector Window 4) : (s.setWindows x).alloc = s.alloc := rfl
@[simp] theorem State.setWindows_cache (x : Vector Window 4) : (s.setWindows x).cache = s.cache := rfl
@[simp] theorem State.setWindows_regions (x : Vector Window 4) : (s.setWindows x).regions = s.regions := rfl
@[simp] theorem State.setWindows_ports (x : Vector Window 4) : (s.setWindows x).ports = s.ports := rfl
@[simp] theorem State.setWindows_windows (x : Vector Window 4) : (s.setWindows x).windows = x := rfl

/-! #### setRegion -/

@[simp] theorem State.setRegion_pending (i : RegionId) (x : Region) : (s.setRegion i x).pending = s.pending := rfl
@[simp] theorem State.setRegion_freeCount (i : RegionId) (x : Region) : (s.setRegion i x).freeCount = s.freeCount := rfl
@[simp] theorem State.setRegion_device (i : RegionId) (x : Region) : (s.setRegion i x).device = s.device := rfl
@[simp] theorem State.setRegion_restart (i : RegionId) (x : Region) : (s.setRegion i x).restart = s.restart := rfl
@[simp] theorem State.setRegion_link (i : RegionId) (x : Region) : (s.setRegion i x).link = s.link := rfl
@[simp] theorem State.setRegion_events (i : RegionId) (x : Region) : (s.setRegion i x).events = s.events := rfl
@[simp] theorem State.setRegion_store (i : RegionId) (x : Region) : (s.setRegion i x).store = s.store := rfl
@[simp] theorem State.setRegion_alloc (i : RegionId) (x : Region) : (s.setRegion i x).alloc = s.alloc := rfl
@[simp] theorem State.setRegion_cache (i : RegionId) (x : Region) : (s.setRegion i x).cache = s.cache := rfl
@[simp] theorem State.setRegion_ports (i : RegionId) (x : Region) : (s.setRegion i x).ports = s.ports := rfl
@[simp] theorem State.setRegion_windows (i : RegionId) (x : Region) : (s.setRegion i x).windows = s.windows := rfl

/-! #### setPort -/

@[simp] theorem State.setPort_pending (i : PortId) (x : Port) : (s.setPort i x).pending = s.pending := rfl
@[simp] theorem State.setPort_freeCount (i : PortId) (x : Port) : (s.setPort i x).freeCount = s.freeCount := rfl
@[simp] theorem State.setPort_device (i : PortId) (x : Port) : (s.setPort i x).device = s.device := rfl
@[simp] theorem State.setPort_restart (i : PortId) (x : Port) : (s.setPort i x).restart = s.restart := rfl
@[simp] theorem State.setPort_link (i : PortId) (x : Port) : (s.setPort i x).link = s.link := rfl
@[simp] theorem State.setPort_events (i : PortId) (x : Port) : (s.setPort i x).events = s.events := rfl
@[simp] theorem State.setPort_store (i : PortId) (x : Port) : (s.setPort i x).store = s.store := rfl
@[simp] theorem State.setPort_alloc (i : PortId) (x : Port) : (s.setPort i x).alloc = s.alloc := rfl
@[simp] theorem State.setPort_cache (i : PortId) (x : Port) : (s.setPort i x).cache = s.cache := rfl
@[simp] theorem State.setPort_regions (i : PortId) (x : Port) : (s.setPort i x).regions = s.regions := rfl
@[simp] theorem State.setPort_windows (i : PortId) (x : Port) : (s.setPort i x).windows = s.windows := rfl

/-! #### setWindow -/

@[simp] theorem State.setWindow_pending (i : WindowId) (x : Window) : (s.setWindow i x).pending = s.pending := rfl
@[simp] theorem State.setWindow_freeCount (i : WindowId) (x : Window) : (s.setWindow i x).freeCount = s.freeCount := rfl
@[simp] theorem State.setWindow_device (i : WindowId) (x : Window) : (s.setWindow i x).device = s.device := rfl
@[simp] theorem State.setWindow_restart (i : WindowId) (x : Window) : (s.setWindow i x).restart = s.restart := rfl
@[simp] theorem State.setWindow_link (i : WindowId) (x : Window) : (s.setWindow i x).link = s.link := rfl
@[simp] theorem State.setWindow_events (i : WindowId) (x : Window) : (s.setWindow i x).events = s.events := rfl
@[simp] theorem State.setWindow_store (i : WindowId) (x : Window) : (s.setWindow i x).store = s.store := rfl
@[simp] theorem State.setWindow_alloc (i : WindowId) (x : Window) : (s.setWindow i x).alloc = s.alloc := rfl
@[simp] theorem State.setWindow_cache (i : WindowId) (x : Window) : (s.setWindow i x).cache = s.cache := rfl
@[simp] theorem State.setWindow_regions (i : WindowId) (x : Window) : (s.setWindow i x).regions = s.regions := rfl
@[simp] theorem State.setWindow_ports (i : WindowId) (x : Window) : (s.setWindow i x).ports = s.ports := rfl

/-! #### setReservation -/

@[simp] theorem State.setReservation_pending (i : RegionId) (x : Nat) : (s.setReservation i x).pending = s.pending := rfl
@[simp] theorem State.setReservation_freeCount (i : RegionId) (x : Nat) : (s.setReservation i x).freeCount = s.freeCount := rfl
@[simp] theorem State.setReservation_device (i : RegionId) (x : Nat) : (s.setReservation i x).device = s.device := rfl
@[simp] theorem State.setReservation_restart (i : RegionId) (x : Nat) : (s.setReservation i x).restart = s.restart := rfl
@[simp] theorem State.setReservation_link (i : RegionId) (x : Nat) : (s.setReservation i x).link = s.link := rfl
@[simp] theorem State.setReservation_events (i : RegionId) (x : Nat) : (s.setReservation i x).events = s.events := rfl
@[simp] theorem State.setReservation_store (i : RegionId) (x : Nat) : (s.setReservation i x).store = s.store := rfl
@[simp] theorem State.setReservation_cache (i : RegionId) (x : Nat) : (s.setReservation i x).cache = s.cache := rfl
@[simp] theorem State.setReservation_regions (i : RegionId) (x : Nat) : (s.setReservation i x).regions = s.regions := rfl
@[simp] theorem State.setReservation_ports (i : RegionId) (x : Nat) : (s.setReservation i x).ports = s.ports := rfl
@[simp] theorem State.setReservation_windows (i : RegionId) (x : Nat) : (s.setReservation i x).windows = s.windows := rfl
@[simp] theorem State.setReservation_table (i : RegionId) (x : Nat) : (s.setReservation i x).alloc.table = s.alloc.table := rfl
@[simp] theorem State.setReservation_pool (i : RegionId) (x : Nat) : (s.setReservation i x).alloc.pool = s.alloc.pool := rfl
@[simp] theorem State.setReservation_ownedPages (i : RegionId) (x : Nat) : (s.setReservation i x).alloc.ownedPages = s.alloc.ownedPages := rfl
@[simp] theorem State.setReservation_reservedTotal (i : RegionId) (x : Nat) : (s.setReservation i x).alloc.reservedTotal = s.alloc.reservedTotal := rfl
@[simp] theorem State.setReservation_retiredList (i : RegionId) (x : Nat) : (s.setReservation i x).alloc.retiredList = s.alloc.retiredList := rfl
@[simp] theorem State.setReservation_retiredIncomplete (i : RegionId) (x : Nat) : (s.setReservation i x).alloc.retiredIncomplete = s.alloc.retiredIncomplete := rfl
@[simp] theorem State.setReservation_scanner (i : RegionId) (x : Nat) : (s.setReservation i x).alloc.scanner = s.alloc.scanner := rfl
@[simp] theorem State.setReservation_threshold (i : RegionId) (x : Nat) : (s.setReservation i x).alloc.threshold = s.alloc.threshold := rfl
@[simp] theorem State.setReservation_armed (i : RegionId) (x : Nat) : (s.setReservation i x).alloc.armed = s.alloc.armed := rfl

/-! #### setOwned -/

@[simp] theorem State.setOwned_pending (i : RegionId) (x : Nat) : (s.setOwned i x).pending = s.pending := rfl
@[simp] theorem State.setOwned_freeCount (i : RegionId) (x : Nat) : (s.setOwned i x).freeCount = s.freeCount := rfl
@[simp] theorem State.setOwned_device (i : RegionId) (x : Nat) : (s.setOwned i x).device = s.device := rfl
@[simp] theorem State.setOwned_restart (i : RegionId) (x : Nat) : (s.setOwned i x).restart = s.restart := rfl
@[simp] theorem State.setOwned_link (i : RegionId) (x : Nat) : (s.setOwned i x).link = s.link := rfl
@[simp] theorem State.setOwned_events (i : RegionId) (x : Nat) : (s.setOwned i x).events = s.events := rfl
@[simp] theorem State.setOwned_store (i : RegionId) (x : Nat) : (s.setOwned i x).store = s.store := rfl
@[simp] theorem State.setOwned_cache (i : RegionId) (x : Nat) : (s.setOwned i x).cache = s.cache := rfl
@[simp] theorem State.setOwned_regions (i : RegionId) (x : Nat) : (s.setOwned i x).regions = s.regions := rfl
@[simp] theorem State.setOwned_ports (i : RegionId) (x : Nat) : (s.setOwned i x).ports = s.ports := rfl
@[simp] theorem State.setOwned_windows (i : RegionId) (x : Nat) : (s.setOwned i x).windows = s.windows := rfl
@[simp] theorem State.setOwned_table (i : RegionId) (x : Nat) : (s.setOwned i x).alloc.table = s.alloc.table := rfl
@[simp] theorem State.setOwned_pool (i : RegionId) (x : Nat) : (s.setOwned i x).alloc.pool = s.alloc.pool := rfl
@[simp] theorem State.setOwned_reservations (i : RegionId) (x : Nat) : (s.setOwned i x).alloc.reservations = s.alloc.reservations := rfl
@[simp] theorem State.setOwned_reservedTotal (i : RegionId) (x : Nat) : (s.setOwned i x).alloc.reservedTotal = s.alloc.reservedTotal := rfl
@[simp] theorem State.setOwned_retiredList (i : RegionId) (x : Nat) : (s.setOwned i x).alloc.retiredList = s.alloc.retiredList := rfl
@[simp] theorem State.setOwned_retiredIncomplete (i : RegionId) (x : Nat) : (s.setOwned i x).alloc.retiredIncomplete = s.alloc.retiredIncomplete := rfl
@[simp] theorem State.setOwned_scanner (i : RegionId) (x : Nat) : (s.setOwned i x).alloc.scanner = s.alloc.scanner := rfl
@[simp] theorem State.setOwned_threshold (i : RegionId) (x : Nat) : (s.setOwned i x).alloc.threshold = s.alloc.threshold := rfl
@[simp] theorem State.setOwned_armed (i : RegionId) (x : Nat) : (s.setOwned i x).alloc.armed = s.alloc.armed := rfl

/-! #### Reading back one entry of a vector -/

theorem vector_get_set {α : Type} {n : Nat} (v : Vector α n) (i j : Fin n) (x : α) :
    (v.set i.val x i.isLt).get j = if j = i then x else v.get j := by
  have h : (v.set i.val x i.isLt).get j = (v.set i.val x i.isLt)[j.val] := rfl
  rw [h, Vector.getElem_set]
  by_cases hij : j = i
  · simp [hij]
  · have : i.val ≠ j.val := fun e => hij (Fin.ext e.symm)
    simp [hij, this]; rfl

@[simp] theorem vector_get_map {α β : Type} {n : Nat} (f : α → β) (v : Vector α n) (j : Fin n) :
    (v.map f).get j = f (v.get j) := by
  have h : (v.map f).get j = (v.map f)[j.val] := rfl
  rw [h, Vector.getElem_map]; rfl

@[simp] theorem vector_get_replicate {α : Type} {n : Nat} (x : α) (j : Fin n) : (Vector.replicate n x).get j = x := by
  have h : (Vector.replicate n x).get j = (Vector.replicate n x)[j.val] := rfl
  rw [h, Vector.getElem_replicate]

theorem vector_ext_get {α : Type} {n : Nat} {v w : Vector α n} (h : ∀ i, v.get i = w.get i) : v = w := by
  apply Vector.ext
  intro i hi
  exact h ⟨i, hi⟩

@[simp] theorem State.setRegion_region (i j : RegionId) (x : Region) : (s.setRegion i x).region j = if j = i then x else s.region j :=
  vector_get_set s.regions i j x

@[simp] theorem State.setPort_port (i j : PortId) (x : Port) : (s.setPort i x).port j = if j = i then x else s.port j :=
  vector_get_set s.ports i j x

@[simp] theorem State.setWindow_window (i j : WindowId) (x : Window) : (s.setWindow i x).window j = if j = i then x else s.window j :=
  vector_get_set s.windows i j x

@[simp] theorem State.setReservation_reservation (i j : RegionId) (n : Nat) :
    (s.setReservation i n).reservation j = if j = i then n else s.reservation j :=
  vector_get_set s.alloc.reservations i j n

@[simp] theorem State.setOwned_owned (i j : RegionId) (n : Nat) :
    (s.setOwned i n).owned j = if j = i then n else s.owned j :=
  vector_get_set s.alloc.ownedPages i j n

@[simp] theorem State.setLink_region (x : Link) (i : RegionId) : (s.setLink x).region i = s.region i := rfl
@[simp] theorem State.setEvents_region (x : EventQueue) (i : RegionId) : (s.setEvents x).region i = s.region i := rfl
@[simp] theorem State.setStore_region (x : Store) (i : RegionId) : (s.setStore x).region i = s.region i := rfl
@[simp] theorem State.setAlloc_region (x : Allocator) (i : RegionId) : (s.setAlloc x).region i = s.region i := rfl
@[simp] theorem State.setCache_region (x : Cache) (i : RegionId) : (s.setCache x).region i = s.region i := rfl
@[simp] theorem State.setDevice_region (x : DeviceState) (i : RegionId) : (s.setDevice x).region i = s.region i := rfl
@[simp] theorem State.setRestart_region (x : Option RunningRestart) (i : RegionId) : (s.setRestart x).region i = s.region i := rfl
@[simp] theorem State.setRegions_region (x : Vector Region 16) (i : RegionId) : (s.setRegions x).region i = x.get i := rfl
@[simp] theorem State.setPorts_region (x : Vector Port 4) (i : RegionId) : (s.setPorts x).region i = s.region i := rfl
@[simp] theorem State.setWindows_region (x : Vector Window 4) (i : RegionId) : (s.setWindows x).region i = s.region i := rfl
@[simp] theorem State.setPort_region (j : PortId) (x : Port) (i : RegionId) : (s.setPort j x).region i = s.region i := rfl
@[simp] theorem State.setWindow_region (j : WindowId) (x : Window) (i : RegionId) : (s.setWindow j x).region i = s.region i := rfl
@[simp] theorem State.setReservation_region (j : RegionId) (x : Nat) (i : RegionId) : (s.setReservation j x).region i = s.region i := rfl
@[simp] theorem State.setOwned_region (j : RegionId) (x : Nat) (i : RegionId) : (s.setOwned j x).region i = s.region i := rfl
@[simp] theorem State.setLink_port (x : Link) (i : PortId) : (s.setLink x).port i = s.port i := rfl
@[simp] theorem State.setEvents_port (x : EventQueue) (i : PortId) : (s.setEvents x).port i = s.port i := rfl
@[simp] theorem State.setStore_port (x : Store) (i : PortId) : (s.setStore x).port i = s.port i := rfl
@[simp] theorem State.setAlloc_port (x : Allocator) (i : PortId) : (s.setAlloc x).port i = s.port i := rfl
@[simp] theorem State.setCache_port (x : Cache) (i : PortId) : (s.setCache x).port i = s.port i := rfl
@[simp] theorem State.setDevice_port (x : DeviceState) (i : PortId) : (s.setDevice x).port i = s.port i := rfl
@[simp] theorem State.setRestart_port (x : Option RunningRestart) (i : PortId) : (s.setRestart x).port i = s.port i := rfl
@[simp] theorem State.setRegions_port (x : Vector Region 16) (i : PortId) : (s.setRegions x).port i = s.port i := rfl
@[simp] theorem State.setPorts_port (x : Vector Port 4) (i : PortId) : (s.setPorts x).port i = x.get i := rfl
@[simp] theorem State.setWindows_port (x : Vector Window 4) (i : PortId) : (s.setWindows x).port i = s.port i := rfl
@[simp] theorem State.setRegion_port (j : RegionId) (x : Region) (i : PortId) : (s.setRegion j x).port i = s.port i := rfl
@[simp] theorem State.setWindow_port (j : WindowId) (x : Window) (i : PortId) : (s.setWindow j x).port i = s.port i := rfl
@[simp] theorem State.setReservation_port (j : RegionId) (x : Nat) (i : PortId) : (s.setReservation j x).port i = s.port i := rfl
@[simp] theorem State.setOwned_port (j : RegionId) (x : Nat) (i : PortId) : (s.setOwned j x).port i = s.port i := rfl
@[simp] theorem State.setLink_window (x : Link) (i : WindowId) : (s.setLink x).window i = s.window i := rfl
@[simp] theorem State.setEvents_window (x : EventQueue) (i : WindowId) : (s.setEvents x).window i = s.window i := rfl
@[simp] theorem State.setStore_window (x : Store) (i : WindowId) : (s.setStore x).window i = s.window i := rfl
@[simp] theorem State.setAlloc_window (x : Allocator) (i : WindowId) : (s.setAlloc x).window i = s.window i := rfl
@[simp] theorem State.setCache_window (x : Cache) (i : WindowId) : (s.setCache x).window i = s.window i := rfl
@[simp] theorem State.setDevice_window (x : DeviceState) (i : WindowId) : (s.setDevice x).window i = s.window i := rfl
@[simp] theorem State.setRestart_window (x : Option RunningRestart) (i : WindowId) : (s.setRestart x).window i = s.window i := rfl
@[simp] theorem State.setRegions_window (x : Vector Region 16) (i : WindowId) : (s.setRegions x).window i = s.window i := rfl
@[simp] theorem State.setPorts_window (x : Vector Port 4) (i : WindowId) : (s.setPorts x).window i = s.window i := rfl
@[simp] theorem State.setWindows_window (x : Vector Window 4) (i : WindowId) : (s.setWindows x).window i = x.get i := rfl
@[simp] theorem State.setRegion_window (j : RegionId) (x : Region) (i : WindowId) : (s.setRegion j x).window i = s.window i := rfl
@[simp] theorem State.setPort_window (j : PortId) (x : Port) (i : WindowId) : (s.setPort j x).window i = s.window i := rfl
@[simp] theorem State.setReservation_window (j : RegionId) (x : Nat) (i : WindowId) : (s.setReservation j x).window i = s.window i := rfl
@[simp] theorem State.setOwned_window (j : RegionId) (x : Nat) (i : WindowId) : (s.setOwned j x).window i = s.window i := rfl
@[simp] theorem State.setLink_reservation (x : Link) (i : RegionId) : (s.setLink x).reservation i = s.reservation i := rfl
@[simp] theorem State.setEvents_reservation (x : EventQueue) (i : RegionId) : (s.setEvents x).reservation i = s.reservation i := rfl
@[simp] theorem State.setStore_reservation (x : Store) (i : RegionId) : (s.setStore x).reservation i = s.reservation i := rfl
@[simp] theorem State.setCache_reservation (x : Cache) (i : RegionId) : (s.setCache x).reservation i = s.reservation i := rfl
@[simp] theorem State.setDevice_reservation (x : DeviceState) (i : RegionId) : (s.setDevice x).reservation i = s.reservation i := rfl
@[simp] theorem State.setRestart_reservation (x : Option RunningRestart) (i : RegionId) : (s.setRestart x).reservation i = s.reservation i := rfl
@[simp] theorem State.setRegions_reservation (x : Vector Region 16) (i : RegionId) : (s.setRegions x).reservation i = s.reservation i := rfl
@[simp] theorem State.setPorts_reservation (x : Vector Port 4) (i : RegionId) : (s.setPorts x).reservation i = s.reservation i := rfl
@[simp] theorem State.setWindows_reservation (x : Vector Window 4) (i : RegionId) : (s.setWindows x).reservation i = s.reservation i := rfl
@[simp] theorem State.setRegion_reservation (j : RegionId) (x : Region) (i : RegionId) : (s.setRegion j x).reservation i = s.reservation i := rfl
@[simp] theorem State.setPort_reservation (j : PortId) (x : Port) (i : RegionId) : (s.setPort j x).reservation i = s.reservation i := rfl
@[simp] theorem State.setWindow_reservation (j : WindowId) (x : Window) (i : RegionId) : (s.setWindow j x).reservation i = s.reservation i := rfl
@[simp] theorem State.setLink_owned (x : Link) (i : RegionId) : (s.setLink x).owned i = s.owned i := rfl
@[simp] theorem State.setEvents_owned (x : EventQueue) (i : RegionId) : (s.setEvents x).owned i = s.owned i := rfl
@[simp] theorem State.setStore_owned (x : Store) (i : RegionId) : (s.setStore x).owned i = s.owned i := rfl
@[simp] theorem State.setCache_owned (x : Cache) (i : RegionId) : (s.setCache x).owned i = s.owned i := rfl
@[simp] theorem State.setDevice_owned (x : DeviceState) (i : RegionId) : (s.setDevice x).owned i = s.owned i := rfl
@[simp] theorem State.setRestart_owned (x : Option RunningRestart) (i : RegionId) : (s.setRestart x).owned i = s.owned i := rfl
@[simp] theorem State.setRegions_owned (x : Vector Region 16) (i : RegionId) : (s.setRegions x).owned i = s.owned i := rfl
@[simp] theorem State.setPorts_owned (x : Vector Port 4) (i : RegionId) : (s.setPorts x).owned i = s.owned i := rfl
@[simp] theorem State.setWindows_owned (x : Vector Window 4) (i : RegionId) : (s.setWindows x).owned i = s.owned i := rfl
@[simp] theorem State.setRegion_owned (j : RegionId) (x : Region) (i : RegionId) : (s.setRegion j x).owned i = s.owned i := rfl
@[simp] theorem State.setPort_owned (j : PortId) (x : Port) (i : RegionId) : (s.setPort j x).owned i = s.owned i := rfl
@[simp] theorem State.setWindow_owned (j : WindowId) (x : Window) (i : RegionId) : (s.setWindow j x).owned i = s.owned i := rfl
@[simp] theorem State.setAlloc_reservation (x : Allocator) (i : RegionId) :
    (s.setAlloc x).reservation i = x.reservations.get i := rfl
@[simp] theorem State.setAlloc_owned (x : Allocator) (i : RegionId) : (s.setAlloc x).owned i = x.ownedPages.get i := rfl
@[simp] theorem State.regions_get (i : RegionId) : s.regions.get i = s.region i := rfl
@[simp] theorem State.ports_get (i : PortId) : s.ports.get i = s.port i := rfl
@[simp] theorem State.windows_get (i : WindowId) : s.windows.get i = s.window i := rfl
@[simp] theorem State.reservations_get (i : RegionId) : s.alloc.reservations.get i = s.reservation i := rfl
@[simp] theorem State.ownedPages_get (i : RegionId) : s.alloc.ownedPages.get i = s.owned i := rfl
@[simp] theorem State.setReservation_owned (j i : RegionId) (n : Nat) : (s.setReservation j n).owned i = s.owned i := rfl
@[simp] theorem State.setOwned_reservation (j i : RegionId) (n : Nat) : (s.setOwned j n).reservation i = s.reservation i := rfl

/-! ### Updates of the same place -/

theorem vector_set_get_self {α : Type} {n : Nat} (v : Vector α n) (i : Fin n) : v.set i.val (v.get i) i.isLt = v := by
  apply vector_ext_get; intro j; rw [vector_get_set]; split
  · next h => rw [h]
  · rfl

theorem vector_set_set {α : Type} {n : Nat} (v : Vector α n) (i : Fin n) (x y : α) :
    (v.set i.val x i.isLt).set i.val y i.isLt = v.set i.val y i.isLt := by
  apply vector_ext_get; intro j; simp only [vector_get_set]; split <;> rfl

@[simp] theorem State.setRegion_self (i : RegionId) : s.setRegion i (s.region i) = s := by
  simp only [State.setRegion, State.region, vector_set_get_self]; rfl
@[simp] theorem State.setPort_self (i : PortId) : s.setPort i (s.port i) = s := by
  simp only [State.setPort, State.port, vector_set_get_self]; rfl
@[simp] theorem State.setWindow_self (i : WindowId) : s.setWindow i (s.window i) = s := by
  simp only [State.setWindow, State.window, vector_set_get_self]; rfl
@[simp] theorem State.setRegion_setRegion (i : RegionId) (x y : Region) :
    (s.setRegion i x).setRegion i y = s.setRegion i y := by
  simp only [State.setRegion, State.setRegions, vector_set_set]
@[simp] theorem State.setPort_setPort (i : PortId) (x y : Port) : (s.setPort i x).setPort i y = s.setPort i y := by
  simp only [State.setPort, State.setPorts, vector_set_set]
@[simp] theorem State.setWindow_setWindow (i : WindowId) (x y : Window) :
    (s.setWindow i x).setWindow i y = s.setWindow i y := by
  simp only [State.setWindow, State.setWindows, vector_set_set]

end Sys2Proof.Machine
end

