-- ==== Sys2Proof/Laws/Frames.lean ====
section
/-! SUPPORT. What each shared operation leaves unchanged, one lemma per operation: the blocks it does not touch, and of the link,
the event queue, the allocator and the store the fields it does not touch. -/

namespace Sys2Proof.Machine

variable (s : State)

@[simp] theorem Store.grant_frame (st : Store) :
    st.grant.memory = st.memory ∧ st.grant.errors = st.errors ∧ st.grant.condition = st.condition ∧ st.grant.initMode = st.initMode ∧
    st.grant.initProgress = st.initProgress ∧ st.grant.correctable = st.correctable := by
  unfold Store.grant Store.grantRead Store.grantDirectory Store.grantWrite
  repeat' split
  all_goals simp

@[simp] theorem Port.stopped_frame (q : Port) :
    q.stopped.binding = q.binding ∧ q.stopped.markerEnable = q.markerEnable ∧ q.stopped.overrunEnable = q.overrunEnable ∧
    q.stopped.halted = q.halted ∧ q.stopped.assembly = q.assembly ∧ q.stopped.inFlight = q.inFlight := by
  simp [Port.stopped]

@[simp] theorem Window.faultNotice_frame (r : RegionId) (w : Window) :
    (w.faultNotice r).state = w.state ∧ (w.faultNotice r).region = w.region ∧ (w.faultNotice r).first = w.first ∧
    (w.faultNotice r).last = w.last ∧ (w.faultNotice r).cursor = w.cursor ∧ (w.faultNotice r).pin = w.pin ∧
    (w.faultNotice r).closeTag = w.closeTag := by
  unfold Window.faultNotice
  repeat' split
  all_goals simp

@[simp] theorem startReply_frame (r : Reply) (rest : List Reply) :
    (startReply r rest s).pending = s.pending ∧ (startReply r rest s).freeCount = s.freeCount ∧
    (startReply r rest s).device = s.device ∧ (startReply r rest s).restart = s.restart ∧
    (startReply r rest s).events = s.events ∧ (startReply r rest s).store = s.store ∧
    (startReply r rest s).alloc = s.alloc ∧ (startReply r rest s).cache = s.cache ∧
    (startReply r rest s).regions = s.regions ∧ (startReply r rest s).ports = s.ports ∧
    (startReply r rest s).windows = s.windows ∧ (startReply r rest s).link.lineRate = s.link.lineRate ∧
    (startReply r rest s).link.kept = s.link.kept ∧ (startReply r rest s).link.state = s.link.state ∧
    (startReply r rest s).link.epoch = s.link.epoch ∧ (startReply r rest s).link.requests = s.link.requests ∧
    (startReply r rest s).link.engine = s.link.engine ∧ (∀ i, (startReply r rest s).region i = s.region i) ∧
    (∀ i, (startReply r rest s).port i = s.port i) ∧ (∀ i, (startReply r rest s).window i = s.window i) ∧
    (∀ i, (startReply r rest s).reservation i = s.reservation i) ∧ (∀ i, (startReply r rest s).owned i = s.owned i) := by
  unfold startReply
  simp

@[simp] theorem startEvent_frame (e : EventEntry) (rest : List EventEntry) :
    (startEvent e rest s).pending = s.pending ∧ (startEvent e rest s).freeCount = s.freeCount ∧
    (startEvent e rest s).device = s.device ∧ (startEvent e rest s).restart = s.restart ∧
    (startEvent e rest s).store = s.store ∧ (startEvent e rest s).alloc = s.alloc ∧ (startEvent e rest s).cache = s.cache ∧
    (startEvent e rest s).regions = s.regions ∧ (startEvent e rest s).ports = s.ports ∧
    (startEvent e rest s).windows = s.windows ∧ (startEvent e rest s).link.lineRate = s.link.lineRate ∧
    (startEvent e rest s).link.kept = s.link.kept ∧ (startEvent e rest s).link.state = s.link.state ∧
    (startEvent e rest s).link.epoch = s.link.epoch ∧ (startEvent e rest s).link.requests = s.link.requests ∧
    (startEvent e rest s).link.engine = s.link.engine ∧ (startEvent e rest s).events.readyCause = s.events.readyCause ∧
    (∀ i, (startEvent e rest s).region i = s.region i) ∧ (∀ i, (startEvent e rest s).port i = s.port i) ∧
    (∀ i, (startEvent e rest s).window i = s.window i) ∧ (∀ i, (startEvent e rest s).reservation i = s.reservation i) ∧
    (∀ i, (startEvent e rest s).owned i = s.owned i) := by
  unfold startEvent
  simp

@[simp] theorem arbitrate_frame :
    (arbitrate s).pending = s.pending ∧ (arbitrate s).freeCount = s.freeCount ∧ (arbitrate s).device = s.device ∧
    (arbitrate s).restart = s.restart ∧ (arbitrate s).store = s.store ∧ (arbitrate s).alloc = s.alloc ∧
    (arbitrate s).cache = s.cache ∧ (arbitrate s).regions = s.regions ∧ (arbitrate s).ports = s.ports ∧
    (arbitrate s).windows = s.windows ∧ (arbitrate s).link.lineRate = s.link.lineRate ∧
    (arbitrate s).link.kept = s.link.kept ∧ (arbitrate s).link.state = s.link.state ∧
    (arbitrate s).link.epoch = s.link.epoch ∧ (arbitrate s).link.requests = s.link.requests ∧
    (arbitrate s).link.engine = s.link.engine ∧ (arbitrate s).events.readyCause = s.events.readyCause ∧
    (∀ i, (arbitrate s).region i = s.region i) ∧ (∀ i, (arbitrate s).port i = s.port i) ∧
    (∀ i, (arbitrate s).window i = s.window i) ∧ (∀ i, (arbitrate s).reservation i = s.reservation i) ∧
    (∀ i, (arbitrate s).owned i = s.owned i) := by
  unfold arbitrate
  repeat' split
  all_goals simp

@[simp] theorem raiseEvent_frame (key : EventKey) (payload : Payload) :
    (raiseEvent key payload s).pending = s.pending ∧ (raiseEvent key payload s).freeCount = s.freeCount ∧
    (raiseEvent key payload s).device = s.device ∧ (raiseEvent key payload s).restart = s.restart ∧
    (raiseEvent key payload s).store = s.store ∧ (raiseEvent key payload s).alloc = s.alloc ∧
    (raiseEvent key payload s).cache = s.cache ∧ (raiseEvent key payload s).regions = s.regions ∧
    (raiseEvent key payload s).ports = s.ports ∧ (raiseEvent key payload s).windows = s.windows ∧
    (raiseEvent key payload s).link.lineRate = s.link.lineRate ∧ (raiseEvent key payload s).link.kept = s.link.kept ∧
    (raiseEvent key payload s).link.state = s.link.state ∧ (raiseEvent key payload s).link.epoch = s.link.epoch ∧
    (raiseEvent key payload s).link.requests = s.link.requests ∧ (raiseEvent key payload s).link.engine = s.link.engine ∧
    (raiseEvent key payload s).events.readyCause = s.events.readyCause ∧
    (∀ i, (raiseEvent key payload s).region i = s.region i) ∧ (∀ i, (raiseEvent key payload s).port i = s.port i) ∧
    (∀ i, (raiseEvent key payload s).window i = s.window i) ∧
    (∀ i, (raiseEvent key payload s).reservation i = s.reservation i) ∧ (∀ i, (raiseEvent key payload s).owned i = s.owned i) := by
  unfold raiseEvent
  repeat' split
  all_goals simp

@[simp] theorem makeReply_frame (tag : Byte) (stale : Bool) (status : Status) (body : List Byte) :
    (makeReply tag stale status body s).pending = s.pending ∧ (makeReply tag stale status body s).freeCount = s.freeCount ∧
    (makeReply tag stale status body s).device = s.device ∧ (makeReply tag stale status body s).restart = s.restart ∧
    (makeReply tag stale status body s).store = s.store ∧ (makeReply tag stale status body s).alloc = s.alloc ∧
    (makeReply tag stale status body s).cache = s.cache ∧ (makeReply tag stale status body s).regions = s.regions ∧
    (makeReply tag stale status body s).ports = s.ports ∧ (makeReply tag stale status body s).windows = s.windows ∧
    (makeReply tag stale status body s).link.lineRate = s.link.lineRate ∧
    (makeReply tag stale status body s).link.kept = s.link.kept ∧
    (makeReply tag stale status body s).link.state = s.link.state ∧
    (makeReply tag stale status body s).link.epoch = s.link.epoch ∧
    (makeReply tag stale status body s).link.requests = s.link.requests ∧
    (makeReply tag stale status body s).link.engine = s.link.engine ∧
    (makeReply tag stale status body s).events.readyCause = s.events.readyCause ∧
    (∀ i, (makeReply tag stale status body s).region i = s.region i) ∧
    (∀ i, (makeReply tag stale status body s).port i = s.port i) ∧
    (∀ i, (makeReply tag stale status body s).window i = s.window i) ∧
    (∀ i, (makeReply tag stale status body s).reservation i = s.reservation i) ∧
    (∀ i, (makeReply tag stale status body s).owned i = s.owned i) := by
  unfold makeReply
  repeat' split
  all_goals simp

@[simp] theorem answer_frame (tag : Byte) (status : Status) (body : List Byte) :
    (answer tag status body s).pending = s.pending ∧ (answer tag status body s).freeCount = s.freeCount ∧
    (answer tag status body s).device = s.device ∧ (answer tag status body s).restart = s.restart ∧
    (answer tag status body s).store = s.store ∧ (answer tag status body s).alloc = s.alloc ∧
    (answer tag status body s).cache = s.cache ∧ (answer tag status body s).regions = s.regions ∧
    (answer tag status body s).ports = s.ports ∧ (answer tag status body s).windows = s.windows ∧
    (answer tag status body s).link.lineRate = s.link.lineRate ∧ (answer tag status body s).link.kept = s.link.kept ∧
    (answer tag status body s).link.state = s.link.state ∧ (answer tag status body s).link.epoch = s.link.epoch ∧
    (answer tag status body s).link.requests = s.link.requests ∧ (answer tag status body s).link.engine = s.link.engine ∧
    (answer tag status body s).events.readyCause = s.events.readyCause ∧
    (∀ i, (answer tag status body s).region i = s.region i) ∧ (∀ i, (answer tag status body s).port i = s.port i) ∧
    (∀ i, (answer tag status body s).window i = s.window i) ∧
    (∀ i, (answer tag status body s).reservation i = s.reservation i) ∧ (∀ i, (answer tag status body s).owned i = s.owned i) := by
  unfold answer
  simp

@[simp] theorem evaluateNotice_frame :
    (evaluateNotice s).pending = s.pending ∧ (evaluateNotice s).freeCount = s.freeCount ∧
    (evaluateNotice s).device = s.device ∧ (evaluateNotice s).restart = s.restart ∧ (evaluateNotice s).store = s.store ∧
    (evaluateNotice s).cache = s.cache ∧ (evaluateNotice s).regions = s.regions ∧ (evaluateNotice s).ports = s.ports ∧
    (evaluateNotice s).windows = s.windows ∧ (evaluateNotice s).alloc.table = s.alloc.table ∧
    (evaluateNotice s).alloc.pool = s.alloc.pool ∧ (evaluateNotice s).alloc.reservations = s.alloc.reservations ∧
    (evaluateNotice s).alloc.ownedPages = s.alloc.ownedPages ∧
    (evaluateNotice s).alloc.reservedTotal = s.alloc.reservedTotal ∧
    (evaluateNotice s).alloc.retiredList = s.alloc.retiredList ∧
    (evaluateNotice s).alloc.retiredIncomplete = s.alloc.retiredIncomplete ∧
    (evaluateNotice s).alloc.scanner = s.alloc.scanner ∧ (evaluateNotice s).alloc.threshold = s.alloc.threshold ∧
    (evaluateNotice s).link.lineRate = s.link.lineRate ∧ (evaluateNotice s).link.kept = s.link.kept ∧
    (evaluateNotice s).link.state = s.link.state ∧ (evaluateNotice s).link.epoch = s.link.epoch ∧
    (evaluateNotice s).link.requests = s.link.requests ∧ (evaluateNotice s).link.engine = s.link.engine ∧
    (evaluateNotice s).events.readyCause = s.events.readyCause ∧ (∀ i, (evaluateNotice s).region i = s.region i) ∧
    (∀ i, (evaluateNotice s).port i = s.port i) ∧ (∀ i, (evaluateNotice s).window i = s.window i) ∧
    (∀ i, (evaluateNotice s).reservation i = s.reservation i) ∧ (∀ i, (evaluateNotice s).owned i = s.owned i) := by
  unfold evaluateNotice
  repeat' split
  all_goals simp

@[simp] theorem takePage_frame (r : RegionId) (page : Nat) (rest : List Nat) :
    (takePage r page rest s).pending = s.pending ∧ (takePage r page rest s).freeCount = s.freeCount ∧
    (takePage r page rest s).device = s.device ∧ (takePage r page rest s).restart = s.restart ∧
    (takePage r page rest s).link = s.link ∧ (takePage r page rest s).events = s.events ∧
    (takePage r page rest s).store = s.store ∧ (takePage r page rest s).cache = s.cache ∧
    (takePage r page rest s).regions = s.regions ∧ (takePage r page rest s).ports = s.ports ∧
    (takePage r page rest s).windows = s.windows ∧ (∀ i, (takePage r page rest s).region i = s.region i) ∧
    (∀ i, (takePage r page rest s).port i = s.port i) ∧ (∀ i, (takePage r page rest s).window i = s.window i) := by
  unfold takePage
  simp

@[simp] theorem returnReservation_frame (r : RegionId) :
    (returnReservation r s).pending = s.pending ∧ (returnReservation r s).freeCount = s.freeCount ∧
    (returnReservation r s).device = s.device ∧ (returnReservation r s).restart = s.restart ∧
    (returnReservation r s).store = s.store ∧ (returnReservation r s).cache = s.cache ∧
    (returnReservation r s).regions = s.regions ∧ (returnReservation r s).ports = s.ports ∧
    (returnReservation r s).windows = s.windows ∧ (returnReservation r s).link.lineRate = s.link.lineRate ∧
    (returnReservation r s).link.kept = s.link.kept ∧ (returnReservation r s).link.state = s.link.state ∧
    (returnReservation r s).link.epoch = s.link.epoch ∧ (returnReservation r s).link.requests = s.link.requests ∧
    (returnReservation r s).link.engine = s.link.engine ∧ (returnReservation r s).events.readyCause = s.events.readyCause ∧
    (∀ i, (returnReservation r s).region i = s.region i) ∧ (∀ i, (returnReservation r s).port i = s.port i) ∧
    (∀ i, (returnReservation r s).window i = s.window i) := by
  unfold returnReservation
  repeat' split
  all_goals simp

@[simp] theorem markSuspect_frame (page : Nat) :
    (markSuspect page s).pending = s.pending ∧ (markSuspect page s).freeCount = s.freeCount ∧
    (markSuspect page s).device = s.device ∧ (markSuspect page s).restart = s.restart ∧ (markSuspect page s).link = s.link ∧
    (markSuspect page s).events = s.events ∧ (markSuspect page s).store = s.store ∧ (markSuspect page s).cache = s.cache ∧
    (markSuspect page s).regions = s.regions ∧ (markSuspect page s).ports = s.ports ∧
    (markSuspect page s).windows = s.windows ∧ (∀ i, (markSuspect page s).region i = s.region i) ∧
    (∀ i, (markSuspect page s).port i = s.port i) ∧ (∀ i, (markSuspect page s).window i = s.window i) := by
  unfold markSuspect
  repeat' split
  all_goals simp

@[simp] theorem retirePage_frame (page : Nat) (origin : RetireOrigin) (region : Option RegionId) :
    (retirePage page origin region s).pending = s.pending ∧ (retirePage page origin region s).freeCount = s.freeCount ∧
    (retirePage page origin region s).device = s.device ∧ (retirePage page origin region s).restart = s.restart ∧
    (retirePage page origin region s).link = s.link ∧ (retirePage page origin region s).events = s.events ∧
    (retirePage page origin region s).store = s.store ∧ (retirePage page origin region s).cache = s.cache ∧
    (retirePage page origin region s).regions = s.regions ∧ (retirePage page origin region s).ports = s.ports ∧
    (retirePage page origin region s).windows = s.windows ∧ (∀ i, (retirePage page origin region s).region i = s.region i) ∧
    (∀ i, (retirePage page origin region s).port i = s.port i) ∧
    (∀ i, (retirePage page origin region s).window i = s.window i) := by
  unfold retirePage
  repeat' split
  all_goals simp

@[simp] theorem returnPage_frame (r : RegionId) (page : Nat) :
    (returnPage r page s).pending = s.pending ∧ (returnPage r page s).freeCount = s.freeCount ∧
    (returnPage r page s).device = s.device ∧ (returnPage r page s).restart = s.restart ∧
    (returnPage r page s).link = s.link ∧ (returnPage r page s).events = s.events ∧ (returnPage r page s).store = s.store ∧
    (returnPage r page s).cache = s.cache ∧ (returnPage r page s).regions = s.regions ∧
    (returnPage r page s).ports = s.ports ∧ (returnPage r page s).windows = s.windows ∧
    (∀ i, (returnPage r page s).region i = s.region i) ∧ (∀ i, (returnPage r page s).port i = s.port i) ∧
    (∀ i, (returnPage r page s).window i = s.window i) := by
  unfold returnPage
  simp

@[simp] theorem retireOwned_frame (r : RegionId) (page : Nat) (origin : RetireOrigin) :
    (retireOwned r page origin s).pending = s.pending ∧ (retireOwned r page origin s).freeCount = s.freeCount ∧
    (retireOwned r page origin s).device = s.device ∧ (retireOwned r page origin s).restart = s.restart ∧
    (retireOwned r page origin s).link = s.link ∧ (retireOwned r page origin s).events = s.events ∧
    (retireOwned r page origin s).store = s.store ∧ (retireOwned r page origin s).cache = s.cache ∧
    (retireOwned r page origin s).regions = s.regions ∧ (retireOwned r page origin s).ports = s.ports ∧
    (retireOwned r page origin s).windows = s.windows ∧ (∀ i, (retireOwned r page origin s).region i = s.region i) ∧
    (∀ i, (retireOwned r page origin s).port i = s.port i) ∧ (∀ i, (retireOwned r page origin s).window i = s.window i) := by
  unfold retireOwned
  simp

@[simp] theorem buildPool_frame :
    (buildPool s).pending = s.pending ∧ (buildPool s).freeCount = s.freeCount ∧ (buildPool s).device = s.device ∧
    (buildPool s).restart = s.restart ∧ (buildPool s).link = s.link ∧ (buildPool s).events = s.events ∧
    (buildPool s).store = s.store ∧ (buildPool s).cache = s.cache ∧ (buildPool s).regions = s.regions ∧
    (buildPool s).ports = s.ports ∧ (buildPool s).windows = s.windows ∧ (∀ i, (buildPool s).region i = s.region i) ∧
    (∀ i, (buildPool s).port i = s.port i) ∧ (∀ i, (buildPool s).window i = s.window i) := by
  unfold buildPool
  simp

@[simp] theorem finishRestartWalk_frame :
    (finishRestartWalk s).pending = s.pending ∧ (finishRestartWalk s).freeCount = s.freeCount ∧
    (finishRestartWalk s).device = s.device ∧ (finishRestartWalk s).restart = s.restart ∧
    (finishRestartWalk s).link = s.link ∧ (finishRestartWalk s).events = s.events ∧ (finishRestartWalk s).store = s.store ∧
    (finishRestartWalk s).cache = s.cache ∧ (finishRestartWalk s).regions = s.regions ∧
    (finishRestartWalk s).ports = s.ports ∧ (finishRestartWalk s).windows = s.windows ∧
    (∀ i, (finishRestartWalk s).region i = s.region i) ∧ (∀ i, (finishRestartWalk s).port i = s.port i) ∧
    (∀ i, (finishRestartWalk s).window i = s.window i) := by
  unfold finishRestartWalk
  simp

@[simp] theorem lookupSlot_frame (r : RegionId) (slot : Nat) (who : Requester) :
    ((lookupSlot r slot who s).2).pending = s.pending ∧ ((lookupSlot r slot who s).2).freeCount = s.freeCount ∧
    ((lookupSlot r slot who s).2).device = s.device ∧ ((lookupSlot r slot who s).2).restart = s.restart ∧
    ((lookupSlot r slot who s).2).link = s.link ∧ ((lookupSlot r slot who s).2).events = s.events ∧
    ((lookupSlot r slot who s).2).alloc = s.alloc ∧ ((lookupSlot r slot who s).2).regions = s.regions ∧
    ((lookupSlot r slot who s).2).ports = s.ports ∧ ((lookupSlot r slot who s).2).windows = s.windows ∧
    (∀ i, ((lookupSlot r slot who s).2).region i = s.region i) ∧ (∀ i, ((lookupSlot r slot who s).2).port i = s.port i) ∧
    (∀ i, ((lookupSlot r slot who s).2).window i = s.window i) ∧
    (∀ i, ((lookupSlot r slot who s).2).reservation i = s.reservation i) ∧
    (∀ i, ((lookupSlot r slot who s).2).owned i = s.owned i) ∧ ((lookupSlot r slot who s).2).store.memory = s.store.memory ∧
    ((lookupSlot r slot who s).2).store.errors = s.store.errors ∧
    ((lookupSlot r slot who s).2).store.condition = s.store.condition := by
  unfold lookupSlot
  repeat' split
  all_goals simp

@[simp] theorem writeUpdate_frame (r : RegionId) (slot page : Nat) :
    (writeUpdate r slot page s).pending = s.pending ∧ (writeUpdate r slot page s).freeCount = s.freeCount ∧
    (writeUpdate r slot page s).device = s.device ∧ (writeUpdate r slot page s).restart = s.restart ∧
    (writeUpdate r slot page s).link = s.link ∧ (writeUpdate r slot page s).events = s.events ∧
    (writeUpdate r slot page s).store = s.store ∧ (writeUpdate r slot page s).alloc = s.alloc ∧
    (writeUpdate r slot page s).regions = s.regions ∧ (writeUpdate r slot page s).ports = s.ports ∧
    (writeUpdate r slot page s).windows = s.windows ∧ (∀ i, (writeUpdate r slot page s).region i = s.region i) ∧
    (∀ i, (writeUpdate r slot page s).port i = s.port i) ∧ (∀ i, (writeUpdate r slot page s).window i = s.window i) ∧
    (∀ i, (writeUpdate r slot page s).reservation i = s.reservation i) ∧
    (∀ i, (writeUpdate r slot page s).owned i = s.owned i) := by
  unfold writeUpdate
  repeat' split
  all_goals simp

@[simp] theorem fillPageNumber_frame (r : RegionId) (slot page : Nat) :
    ((fillPageNumber r slot page s).2).pending = s.pending ∧ ((fillPageNumber r slot page s).2).freeCount = s.freeCount ∧
    ((fillPageNumber r slot page s).2).device = s.device ∧ ((fillPageNumber r slot page s).2).restart = s.restart ∧
    ((fillPageNumber r slot page s).2).link = s.link ∧ ((fillPageNumber r slot page s).2).events = s.events ∧
    ((fillPageNumber r slot page s).2).store = s.store ∧ ((fillPageNumber r slot page s).2).alloc = s.alloc ∧
    ((fillPageNumber r slot page s).2).regions = s.regions ∧ ((fillPageNumber r slot page s).2).ports = s.ports ∧
    ((fillPageNumber r slot page s).2).windows = s.windows ∧
    (∀ i, ((fillPageNumber r slot page s).2).region i = s.region i) ∧
    (∀ i, ((fillPageNumber r slot page s).2).port i = s.port i) ∧
    (∀ i, ((fillPageNumber r slot page s).2).window i = s.window i) ∧
    (∀ i, ((fillPageNumber r slot page s).2).reservation i = s.reservation i) ∧
    (∀ i, ((fillPageNumber r slot page s).2).owned i = s.owned i) := by
  unfold fillPageNumber
  repeat' split
  all_goals simp

@[simp] theorem storeGrant_frame :
    (storeGrant s).pending = s.pending ∧ (storeGrant s).freeCount = s.freeCount ∧ (storeGrant s).device = s.device ∧
    (storeGrant s).restart = s.restart ∧ (storeGrant s).link = s.link ∧ (storeGrant s).events = s.events ∧
    (storeGrant s).alloc = s.alloc ∧ (storeGrant s).cache = s.cache ∧ (storeGrant s).regions = s.regions ∧
    (storeGrant s).ports = s.ports ∧ (storeGrant s).windows = s.windows ∧ (∀ i, (storeGrant s).region i = s.region i) ∧
    (∀ i, (storeGrant s).port i = s.port i) ∧ (∀ i, (storeGrant s).window i = s.window i) ∧
    (∀ i, (storeGrant s).reservation i = s.reservation i) ∧ (∀ i, (storeGrant s).owned i = s.owned i) ∧
    (storeGrant s).store.memory = s.store.memory ∧
    (storeGrant s).store.errors = s.store.errors ∧ (storeGrant s).store.condition = s.store.condition := by
  unfold storeGrant
  simp

@[simp] theorem freePort_frame :
    (freePort s).pending = s.pending ∧ (freePort s).freeCount = s.freeCount ∧ (freePort s).device = s.device ∧
    (freePort s).restart = s.restart ∧ (freePort s).link = s.link ∧ (freePort s).events = s.events ∧
    (freePort s).alloc = s.alloc ∧ (freePort s).cache = s.cache ∧ (freePort s).regions = s.regions ∧
    (freePort s).ports = s.ports ∧ (freePort s).windows = s.windows ∧ (∀ i, (freePort s).region i = s.region i) ∧
    (∀ i, (freePort s).port i = s.port i) ∧ (∀ i, (freePort s).window i = s.window i) ∧
    (∀ i, (freePort s).reservation i = s.reservation i) ∧ (∀ i, (freePort s).owned i = s.owned i) ∧
    (freePort s).store.memory = s.store.memory ∧
    (freePort s).store.errors = s.store.errors ∧ (freePort s).store.condition = s.store.condition := by
  unfold freePort
  simp

@[simp] theorem readWords_frame (first n : Nat) (cells : Nat → WordOutcome) :
    (readWords first n cells s).pending = s.pending ∧ (readWords first n cells s).freeCount = s.freeCount ∧
    (readWords first n cells s).device = s.device ∧ (readWords first n cells s).restart = s.restart ∧
    (readWords first n cells s).link = s.link ∧ (readWords first n cells s).events = s.events ∧
    (readWords first n cells s).alloc = s.alloc ∧ (readWords first n cells s).cache = s.cache ∧
    (readWords first n cells s).regions = s.regions ∧ (readWords first n cells s).ports = s.ports ∧
    (readWords first n cells s).windows = s.windows ∧ (∀ i, (readWords first n cells s).region i = s.region i) ∧
    (∀ i, (readWords first n cells s).port i = s.port i) ∧ (∀ i, (readWords first n cells s).window i = s.window i) ∧
    (∀ i, (readWords first n cells s).reservation i = s.reservation i) ∧
    (∀ i, (readWords first n cells s).owned i = s.owned i) ∧ (readWords first n cells s).store.memory = s.store.memory ∧
    (readWords first n cells s).store.condition = s.store.condition := by
  unfold readWords
  simp

@[simp] theorem leaveUnreadable_frame (n : Nat) :
    (leaveUnreadable n s).pending = s.pending ∧ (leaveUnreadable n s).freeCount = s.freeCount ∧
    (leaveUnreadable n s).device = s.device ∧ (leaveUnreadable n s).restart = s.restart ∧
    (leaveUnreadable n s).link = s.link ∧ (leaveUnreadable n s).events = s.events ∧
    (leaveUnreadable n s).alloc = s.alloc ∧ (leaveUnreadable n s).cache = s.cache ∧
    (leaveUnreadable n s).regions = s.regions ∧ (leaveUnreadable n s).ports = s.ports ∧
    (leaveUnreadable n s).windows = s.windows ∧ (∀ i, (leaveUnreadable n s).region i = s.region i) ∧
    (∀ i, (leaveUnreadable n s).port i = s.port i) ∧ (∀ i, (leaveUnreadable n s).window i = s.window i) ∧
    (∀ i, (leaveUnreadable n s).reservation i = s.reservation i) ∧ (∀ i, (leaveUnreadable n s).owned i = s.owned i) ∧
    (leaveUnreadable n s).store.memory = s.store.memory ∧ (leaveUnreadable n s).store.condition = s.store.condition := by
  unfold leaveUnreadable
  simp

@[simp] theorem storeBytes_frame (a : Nat) (bytes : List Byte) :
    (storeBytes a bytes s).pending = s.pending ∧ (storeBytes a bytes s).freeCount = s.freeCount ∧
    (storeBytes a bytes s).device = s.device ∧ (storeBytes a bytes s).restart = s.restart ∧
    (storeBytes a bytes s).link = s.link ∧ (storeBytes a bytes s).events = s.events ∧
    (storeBytes a bytes s).alloc = s.alloc ∧ (storeBytes a bytes s).cache = s.cache ∧
    (storeBytes a bytes s).regions = s.regions ∧ (storeBytes a bytes s).ports = s.ports ∧
    (storeBytes a bytes s).windows = s.windows ∧ (∀ i, (storeBytes a bytes s).region i = s.region i) ∧
    (∀ i, (storeBytes a bytes s).port i = s.port i) ∧ (∀ i, (storeBytes a bytes s).window i = s.window i) ∧
    (∀ i, (storeBytes a bytes s).reservation i = s.reservation i) ∧ (∀ i, (storeBytes a bytes s).owned i = s.owned i) := by
  unfold storeBytes
  simp

@[simp] theorem issueWrite_frame (p : PortId) (w : RecordWrite) :
    (issueWrite p w s).pending = s.pending ∧ (issueWrite p w s).freeCount = s.freeCount ∧
    (issueWrite p w s).device = s.device ∧ (issueWrite p w s).restart = s.restart ∧ (issueWrite p w s).link = s.link ∧
    (issueWrite p w s).events = s.events ∧ (issueWrite p w s).alloc = s.alloc ∧ (issueWrite p w s).cache = s.cache ∧
    (issueWrite p w s).regions = s.regions ∧ (issueWrite p w s).ports = s.ports ∧ (issueWrite p w s).windows = s.windows ∧
    (∀ i, (issueWrite p w s).region i = s.region i) ∧ (∀ i, (issueWrite p w s).port i = s.port i) ∧
    (∀ i, (issueWrite p w s).window i = s.window i) ∧ (∀ i, (issueWrite p w s).reservation i = s.reservation i) ∧
    (∀ i, (issueWrite p w s).owned i = s.owned i) ∧ (issueWrite p w s).store.memory = s.store.memory ∧
    (issueWrite p w s).store.errors = s.store.errors ∧
    (issueWrite p w s).store.condition = s.store.condition := by
  unfold issueWrite
  simp

@[simp] theorem issueRead_frame (w : WindowId) (r : RecordRead) :
    (issueRead w r s).pending = s.pending ∧ (issueRead w r s).freeCount = s.freeCount ∧
    (issueRead w r s).device = s.device ∧ (issueRead w r s).restart = s.restart ∧ (issueRead w r s).link = s.link ∧
    (issueRead w r s).events = s.events ∧ (issueRead w r s).alloc = s.alloc ∧ (issueRead w r s).cache = s.cache ∧
    (issueRead w r s).regions = s.regions ∧ (issueRead w r s).ports = s.ports ∧ (issueRead w r s).windows = s.windows ∧
    (∀ i, (issueRead w r s).region i = s.region i) ∧ (∀ i, (issueRead w r s).port i = s.port i) ∧
    (∀ i, (issueRead w r s).window i = s.window i) ∧ (∀ i, (issueRead w r s).reservation i = s.reservation i) ∧
    (∀ i, (issueRead w r s).owned i = s.owned i) ∧ (issueRead w r s).store.memory = s.store.memory ∧
    (issueRead w r s).store.errors = s.store.errors ∧
    (issueRead w r s).store.condition = s.store.condition := by
  unfold issueRead
  simp

@[simp] theorem issueDirectory_frame (op : DirectoryOp) :
    (issueDirectory op s).pending = s.pending ∧ (issueDirectory op s).freeCount = s.freeCount ∧
    (issueDirectory op s).device = s.device ∧ (issueDirectory op s).restart = s.restart ∧
    (issueDirectory op s).link = s.link ∧ (issueDirectory op s).events = s.events ∧ (issueDirectory op s).alloc = s.alloc ∧
    (issueDirectory op s).cache = s.cache ∧ (issueDirectory op s).regions = s.regions ∧
    (issueDirectory op s).ports = s.ports ∧ (issueDirectory op s).windows = s.windows ∧
    (∀ i, (issueDirectory op s).region i = s.region i) ∧ (∀ i, (issueDirectory op s).port i = s.port i) ∧
    (∀ i, (issueDirectory op s).window i = s.window i) ∧ (∀ i, (issueDirectory op s).reservation i = s.reservation i) ∧
    (∀ i, (issueDirectory op s).owned i = s.owned i) ∧ (issueDirectory op s).store.memory = s.store.memory ∧
    (issueDirectory op s).store.errors = s.store.errors ∧
    (issueDirectory op s).store.condition = s.store.condition := by
  unfold issueDirectory
  simp

@[simp] theorem markerReport_frame (r : RegionId) (k : Nat) :
    (markerReport r k s).pending = s.pending ∧ (markerReport r k s).freeCount = s.freeCount ∧
    (markerReport r k s).device = s.device ∧ (markerReport r k s).restart = s.restart ∧
    (markerReport r k s).store = s.store ∧ (markerReport r k s).alloc = s.alloc ∧ (markerReport r k s).cache = s.cache ∧
    (markerReport r k s).ports = s.ports ∧ (markerReport r k s).windows = s.windows ∧
    (markerReport r k s).link.lineRate = s.link.lineRate ∧ (markerReport r k s).link.kept = s.link.kept ∧
    (markerReport r k s).link.state = s.link.state ∧ (markerReport r k s).link.epoch = s.link.epoch ∧
    (markerReport r k s).link.requests = s.link.requests ∧ (markerReport r k s).link.engine = s.link.engine ∧
    (markerReport r k s).events.readyCause = s.events.readyCause ∧
    (∀ i, ((markerReport r k s).region i).params = (s.region i).params) ∧
    (∀ i, ((markerReport r k s).region i).eventMask = (s.region i).eventMask) ∧
    (∀ i, ((markerReport r k s).region i).committed = (s.region i).committed) ∧
    (∀ i, ((markerReport r k s).region i).boundPort = (s.region i).boundPort) ∧
    (∀ i, ((markerReport r k s).region i).suspect = (s.region i).suspect) ∧
    (∀ i, ((markerReport r k s).region i).faultPage = (s.region i).faultPage) ∧
    (∀ i, (markerReport r k s).port i = s.port i) ∧ (∀ i, (markerReport r k s).window i = s.window i) ∧
    (∀ i, (markerReport r k s).reservation i = s.reservation i) ∧ (∀ i, (markerReport r k s).owned i = s.owned i) := by
  unfold markerReport
  repeat' split
  all_goals simp
  all_goals repeat' apply And.intro
  all_goals intro i
  all_goals split <;> simp_all

@[simp] theorem issueRecordWrite_frame (p : PortId) (r : RegionId) (page : Nat) :
    (issueRecordWrite p r page s).pending = s.pending ∧ (issueRecordWrite p r page s).freeCount = s.freeCount ∧
    (issueRecordWrite p r page s).device = s.device ∧ (issueRecordWrite p r page s).restart = s.restart ∧
    (issueRecordWrite p r page s).alloc = s.alloc ∧ (issueRecordWrite p r page s).cache = s.cache ∧
    (issueRecordWrite p r page s).windows = s.windows ∧ (issueRecordWrite p r page s).link.lineRate = s.link.lineRate ∧
    (issueRecordWrite p r page s).link.kept = s.link.kept ∧ (issueRecordWrite p r page s).link.state = s.link.state ∧
    (issueRecordWrite p r page s).link.epoch = s.link.epoch ∧
    (issueRecordWrite p r page s).link.requests = s.link.requests ∧
    (issueRecordWrite p r page s).link.engine = s.link.engine ∧
    (issueRecordWrite p r page s).events.readyCause = s.events.readyCause ∧
    (∀ i, ((issueRecordWrite p r page s).region i).params = (s.region i).params) ∧
    (∀ i, ((issueRecordWrite p r page s).region i).eventMask = (s.region i).eventMask) ∧
    (∀ i, ((issueRecordWrite p r page s).region i).committed = (s.region i).committed) ∧
    (∀ i, ((issueRecordWrite p r page s).region i).boundPort = (s.region i).boundPort) ∧
    (∀ i, ((issueRecordWrite p r page s).region i).suspect = (s.region i).suspect) ∧
    (∀ i, ((issueRecordWrite p r page s).region i).faultPage = (s.region i).faultPage) ∧
    (∀ i, ((issueRecordWrite p r page s).port i).binding = (s.port i).binding) ∧
    (∀ i, ((issueRecordWrite p r page s).port i).markerEnable = (s.port i).markerEnable) ∧
    (∀ i, ((issueRecordWrite p r page s).port i).overrunEnable = (s.port i).overrunEnable) ∧
    (∀ i, ((issueRecordWrite p r page s).port i).halted = (s.port i).halted) ∧
    (∀ i, ((issueRecordWrite p r page s).port i).assembly = (s.port i).assembly) ∧
    (∀ i, ((issueRecordWrite p r page s).port i).counts = (s.port i).counts) ∧
    (∀ i, (issueRecordWrite p r page s).window i = s.window i) ∧
    (∀ i, (issueRecordWrite p r page s).reservation i = s.reservation i) ∧
    (∀ i, (issueRecordWrite p r page s).owned i = s.owned i) ∧ (issueRecordWrite p r page s).store.memory = s.store.memory ∧
    (issueRecordWrite p r page s).store.errors = s.store.errors ∧
    (issueRecordWrite p r page s).store.condition = s.store.condition := by
  unfold issueRecordWrite
  repeat' split
  all_goals simp
  all_goals repeat' apply And.intro
  all_goals intro i
  all_goals split <;> simp_all

@[simp] theorem breakPin_frame (r : RegionId) (l : Nat) (w : WindowId) :
    (breakPin r l s w).pending = s.pending ∧ (breakPin r l s w).freeCount = s.freeCount ∧
    (breakPin r l s w).device = s.device ∧ (breakPin r l s w).restart = s.restart ∧ (breakPin r l s w).store = s.store ∧
    (breakPin r l s w).alloc = s.alloc ∧ (breakPin r l s w).cache = s.cache ∧ (breakPin r l s w).regions = s.regions ∧
    (breakPin r l s w).ports = s.ports ∧ (breakPin r l s w).link.lineRate = s.link.lineRate ∧
    (breakPin r l s w).link.kept = s.link.kept ∧ (breakPin r l s w).link.state = s.link.state ∧
    (breakPin r l s w).link.epoch = s.link.epoch ∧ (breakPin r l s w).link.requests = s.link.requests ∧
    (breakPin r l s w).link.engine = s.link.engine ∧ (breakPin r l s w).events.readyCause = s.events.readyCause ∧
    (∀ i, (breakPin r l s w).region i = s.region i) ∧ (∀ i, (breakPin r l s w).port i = s.port i) ∧
    (∀ i, ((breakPin r l s w).window i).region = (s.window i).region) ∧
    (∀ i, ((breakPin r l s w).window i).first = (s.window i).first) ∧
    (∀ i, ((breakPin r l s w).window i).last = (s.window i).last) ∧
    (∀ i, (breakPin r l s w).reservation i = s.reservation i) ∧ (∀ i, (breakPin r l s w).owned i = s.owned i) := by
  unfold breakPin
  simp
  all_goals repeat' apply And.intro
  all_goals intro i
  all_goals split <;> simp_all

@[simp] theorem breakPins_frame (r : RegionId) (l : Nat) (ws : List WindowId) :
    (ws.foldl (breakPin r l) s).pending = s.pending ∧ (ws.foldl (breakPin r l) s).freeCount = s.freeCount ∧
    (ws.foldl (breakPin r l) s).device = s.device ∧ (ws.foldl (breakPin r l) s).restart = s.restart ∧
    (ws.foldl (breakPin r l) s).store = s.store ∧ (ws.foldl (breakPin r l) s).alloc = s.alloc ∧
    (ws.foldl (breakPin r l) s).cache = s.cache ∧ (ws.foldl (breakPin r l) s).regions = s.regions ∧
    (ws.foldl (breakPin r l) s).ports = s.ports ∧ (ws.foldl (breakPin r l) s).link.lineRate = s.link.lineRate ∧
    (ws.foldl (breakPin r l) s).link.kept = s.link.kept ∧ (ws.foldl (breakPin r l) s).link.state = s.link.state ∧
    (ws.foldl (breakPin r l) s).link.epoch = s.link.epoch ∧ (ws.foldl (breakPin r l) s).link.requests = s.link.requests ∧
    (ws.foldl (breakPin r l) s).link.engine = s.link.engine ∧
    (ws.foldl (breakPin r l) s).events.readyCause = s.events.readyCause ∧
    (∀ i, (ws.foldl (breakPin r l) s).region i = s.region i) ∧ (∀ i, (ws.foldl (breakPin r l) s).port i = s.port i) ∧
    (∀ i, ((ws.foldl (breakPin r l) s).window i).region = (s.window i).region) ∧
    (∀ i, ((ws.foldl (breakPin r l) s).window i).first = (s.window i).first) ∧
    (∀ i, ((ws.foldl (breakPin r l) s).window i).last = (s.window i).last) ∧
    (∀ i, (ws.foldl (breakPin r l) s).reservation i = s.reservation i) ∧
    (∀ i, (ws.foldl (breakPin r l) s).owned i = s.owned i) := by
  induction ws generalizing s with
  | nil => simp
  | cons w ws ih => rw [List.foldl_cons]; have h := ih (breakPin r l s w); simpa using h

@[simp] theorem advanceOldest_frame (r : RegionId) (l : Nat) :
    (advanceOldest r l s).pending = s.pending ∧ (advanceOldest r l s).freeCount = s.freeCount ∧
    (advanceOldest r l s).device = s.device ∧ (advanceOldest r l s).restart = s.restart ∧
    (advanceOldest r l s).link = s.link ∧ (advanceOldest r l s).events = s.events ∧ (advanceOldest r l s).store = s.store ∧
    (advanceOldest r l s).alloc = s.alloc ∧ (advanceOldest r l s).cache = s.cache ∧ (advanceOldest r l s).ports = s.ports ∧
    (advanceOldest r l s).windows = s.windows ∧ (∀ i, ((advanceOldest r l s).region i).params = (s.region i).params) ∧
    (∀ i, ((advanceOldest r l s).region i).eventMask = (s.region i).eventMask) ∧
    (∀ i, ((advanceOldest r l s).region i).committed = (s.region i).committed) ∧
    (∀ i, ((advanceOldest r l s).region i).boundPort = (s.region i).boundPort) ∧
    (∀ i, ((advanceOldest r l s).region i).suspect = (s.region i).suspect) ∧
    (∀ i, ((advanceOldest r l s).region i).faultPage = (s.region i).faultPage) ∧
    (∀ i, (advanceOldest r l s).port i = s.port i) ∧ (∀ i, (advanceOldest r l s).window i = s.window i) ∧
    (∀ i, (advanceOldest r l s).reservation i = s.reservation i) ∧ (∀ i, (advanceOldest r l s).owned i = s.owned i) := by
  unfold advanceOldest
  simp
  all_goals repeat' apply And.intro
  all_goals intro i
  all_goals split <;> simp_all

@[simp] theorem pinCheck_frame (r : RegionId) (l : Nat) :
    ((pinCheck r l s).2).pending = s.pending ∧ ((pinCheck r l s).2).freeCount = s.freeCount ∧
    ((pinCheck r l s).2).device = s.device ∧ ((pinCheck r l s).2).restart = s.restart ∧
    ((pinCheck r l s).2).store = s.store ∧ ((pinCheck r l s).2).alloc = s.alloc ∧ ((pinCheck r l s).2).cache = s.cache ∧
    ((pinCheck r l s).2).ports = s.ports ∧ ((pinCheck r l s).2).link.lineRate = s.link.lineRate ∧
    ((pinCheck r l s).2).link.kept = s.link.kept ∧ ((pinCheck r l s).2).link.state = s.link.state ∧
    ((pinCheck r l s).2).link.epoch = s.link.epoch ∧ ((pinCheck r l s).2).link.requests = s.link.requests ∧
    ((pinCheck r l s).2).link.engine = s.link.engine ∧ ((pinCheck r l s).2).events.readyCause = s.events.readyCause ∧
    (∀ i, (((pinCheck r l s).2).region i).params = (s.region i).params) ∧
    (∀ i, (((pinCheck r l s).2).region i).eventMask = (s.region i).eventMask) ∧
    (∀ i, (((pinCheck r l s).2).region i).committed = (s.region i).committed) ∧
    (∀ i, (((pinCheck r l s).2).region i).boundPort = (s.region i).boundPort) ∧
    (∀ i, (((pinCheck r l s).2).region i).suspect = (s.region i).suspect) ∧
    (∀ i, (((pinCheck r l s).2).region i).faultPage = (s.region i).faultPage) ∧
    (∀ i, ((pinCheck r l s).2).port i = s.port i) ∧ (∀ i, (((pinCheck r l s).2).window i).region = (s.window i).region) ∧
    (∀ i, (((pinCheck r l s).2).window i).first = (s.window i).first) ∧
    (∀ i, (((pinCheck r l s).2).window i).last = (s.window i).last) ∧
    (∀ i, ((pinCheck r l s).2).reservation i = s.reservation i) ∧ (∀ i, ((pinCheck r l s).2).owned i = s.owned i) := by
  unfold pinCheck
  repeat' split
  all_goals simp

@[simp] theorem claimEnds_frame (p : PortId) (r : RegionId) (l page : Nat) :
    (claimEnds p r l page s).pending = s.pending ∧ (claimEnds p r l page s).freeCount = s.freeCount ∧
    (claimEnds p r l page s).device = s.device ∧ (claimEnds p r l page s).restart = s.restart ∧
    (claimEnds p r l page s).alloc = s.alloc ∧ (claimEnds p r l page s).cache = s.cache ∧
    (claimEnds p r l page s).windows = s.windows ∧ (claimEnds p r l page s).link.lineRate = s.link.lineRate ∧
    (claimEnds p r l page s).link.kept = s.link.kept ∧ (claimEnds p r l page s).link.state = s.link.state ∧
    (claimEnds p r l page s).link.epoch = s.link.epoch ∧ (claimEnds p r l page s).link.requests = s.link.requests ∧
    (claimEnds p r l page s).link.engine = s.link.engine ∧
    (claimEnds p r l page s).events.readyCause = s.events.readyCause ∧
    (∀ i, ((claimEnds p r l page s).region i).params = (s.region i).params) ∧
    (∀ i, ((claimEnds p r l page s).region i).eventMask = (s.region i).eventMask) ∧
    (∀ i, ((claimEnds p r l page s).region i).committed = (s.region i).committed) ∧
    (∀ i, ((claimEnds p r l page s).region i).boundPort = (s.region i).boundPort) ∧
    (∀ i, ((claimEnds p r l page s).region i).suspect = (s.region i).suspect) ∧
    (∀ i, ((claimEnds p r l page s).region i).faultPage = (s.region i).faultPage) ∧
    (∀ i, ((claimEnds p r l page s).port i).binding = (s.port i).binding) ∧
    (∀ i, ((claimEnds p r l page s).port i).markerEnable = (s.port i).markerEnable) ∧
    (∀ i, ((claimEnds p r l page s).port i).overrunEnable = (s.port i).overrunEnable) ∧
    (∀ i, ((claimEnds p r l page s).port i).halted = (s.port i).halted) ∧
    (∀ i, ((claimEnds p r l page s).port i).assembly = (s.port i).assembly) ∧
    (∀ i, ((claimEnds p r l page s).port i).counts = (s.port i).counts) ∧
    (∀ i, (claimEnds p r l page s).window i = s.window i) ∧
    (∀ i, (claimEnds p r l page s).reservation i = s.reservation i) ∧ (∀ i, (claimEnds p r l page s).owned i = s.owned i) ∧
    (claimEnds p r l page s).store.memory = s.store.memory ∧
    (claimEnds p r l page s).store.errors = s.store.errors ∧ (claimEnds p r l page s).store.condition = s.store.condition := by
  unfold claimEnds
  simp
  all_goals repeat' apply And.intro
  all_goals intro i
  all_goals split <;> simp_all

@[simp] theorem enterStarved_frame (p : PortId) (r : RegionId) (l : Nat) (rc : Recycle) (page : Nat) (ws : List WindowId) :
    (enterStarved p r l rc page ws s).pending = s.pending ∧ (enterStarved p r l rc page ws s).freeCount = s.freeCount ∧
    (enterStarved p r l rc page ws s).device = s.device ∧ (enterStarved p r l rc page ws s).restart = s.restart ∧
    (enterStarved p r l rc page ws s).store = s.store ∧ (enterStarved p r l rc page ws s).alloc = s.alloc ∧
    (enterStarved p r l rc page ws s).cache = s.cache ∧ (enterStarved p r l rc page ws s).regions = s.regions ∧
    (enterStarved p r l rc page ws s).windows = s.windows ∧
    (enterStarved p r l rc page ws s).link.lineRate = s.link.lineRate ∧
    (enterStarved p r l rc page ws s).link.kept = s.link.kept ∧
    (enterStarved p r l rc page ws s).link.state = s.link.state ∧
    (enterStarved p r l rc page ws s).link.epoch = s.link.epoch ∧
    (enterStarved p r l rc page ws s).link.requests = s.link.requests ∧
    (enterStarved p r l rc page ws s).link.engine = s.link.engine ∧
    (enterStarved p r l rc page ws s).events.readyCause = s.events.readyCause ∧
    (∀ i, (enterStarved p r l rc page ws s).region i = s.region i) ∧
    (∀ i, ((enterStarved p r l rc page ws s).port i).binding = (s.port i).binding) ∧
    (∀ i, ((enterStarved p r l rc page ws s).port i).markerEnable = (s.port i).markerEnable) ∧
    (∀ i, ((enterStarved p r l rc page ws s).port i).overrunEnable = (s.port i).overrunEnable) ∧
    (∀ i, ((enterStarved p r l rc page ws s).port i).halted = (s.port i).halted) ∧
    (∀ i, ((enterStarved p r l rc page ws s).port i).assembly = (s.port i).assembly) ∧
    (∀ i, ((enterStarved p r l rc page ws s).port i).counts = (s.port i).counts) ∧
    (∀ i, (enterStarved p r l rc page ws s).window i = s.window i) ∧
    (∀ i, (enterStarved p r l rc page ws s).reservation i = s.reservation i) ∧
    (∀ i, (enterStarved p r l rc page ws s).owned i = s.owned i) := by
  unfold enterStarved
  simp
  all_goals repeat' apply And.intro
  all_goals intro i
  all_goals split <;> simp_all

@[simp] theorem recycleStep_frame (p : PortId) (r : RegionId) (l : Nat) (rc : Recycle) (page : Nat) :
    (recycleStep p r l rc page s).pending = s.pending ∧ (recycleStep p r l rc page s).freeCount = s.freeCount ∧
    (recycleStep p r l rc page s).device = s.device ∧ (recycleStep p r l rc page s).restart = s.restart ∧
    (recycleStep p r l rc page s).alloc = s.alloc ∧ (recycleStep p r l rc page s).cache = s.cache ∧
    (recycleStep p r l rc page s).link.lineRate = s.link.lineRate ∧ (recycleStep p r l rc page s).link.kept = s.link.kept ∧
    (recycleStep p r l rc page s).link.state = s.link.state ∧ (recycleStep p r l rc page s).link.epoch = s.link.epoch ∧
    (recycleStep p r l rc page s).link.requests = s.link.requests ∧
    (recycleStep p r l rc page s).link.engine = s.link.engine ∧
    (recycleStep p r l rc page s).events.readyCause = s.events.readyCause ∧
    (∀ i, ((recycleStep p r l rc page s).region i).params = (s.region i).params) ∧
    (∀ i, ((recycleStep p r l rc page s).region i).eventMask = (s.region i).eventMask) ∧
    (∀ i, ((recycleStep p r l rc page s).region i).committed = (s.region i).committed) ∧
    (∀ i, ((recycleStep p r l rc page s).region i).boundPort = (s.region i).boundPort) ∧
    (∀ i, ((recycleStep p r l rc page s).region i).suspect = (s.region i).suspect) ∧
    (∀ i, ((recycleStep p r l rc page s).region i).faultPage = (s.region i).faultPage) ∧
    (∀ i, ((recycleStep p r l rc page s).port i).binding = (s.port i).binding) ∧
    (∀ i, ((recycleStep p r l rc page s).port i).markerEnable = (s.port i).markerEnable) ∧
    (∀ i, ((recycleStep p r l rc page s).port i).overrunEnable = (s.port i).overrunEnable) ∧
    (∀ i, ((recycleStep p r l rc page s).port i).halted = (s.port i).halted) ∧
    (∀ i, ((recycleStep p r l rc page s).port i).assembly = (s.port i).assembly) ∧
    (∀ i, ((recycleStep p r l rc page s).port i).counts = (s.port i).counts) ∧
    (∀ i, ((recycleStep p r l rc page s).window i).region = (s.window i).region) ∧
    (∀ i, ((recycleStep p r l rc page s).window i).first = (s.window i).first) ∧
    (∀ i, ((recycleStep p r l rc page s).window i).last = (s.window i).last) ∧
    (∀ i, (recycleStep p r l rc page s).reservation i = s.reservation i) ∧
    (∀ i, (recycleStep p r l rc page s).owned i = s.owned i) ∧ (recycleStep p r l rc page s).store.memory = s.store.memory ∧
    (recycleStep p r l rc page s).store.errors = s.store.errors ∧
    (recycleStep p r l rc page s).store.condition = s.store.condition := by
  unfold recycleStep
  dsimp only
  repeat' split
  all_goals simp

@[simp] theorem recycleLookup_frame (p : PortId) (r : RegionId) (l : Nat) :
    (recycleLookup p r l s).pending = s.pending ∧ (recycleLookup p r l s).freeCount = s.freeCount ∧
    (recycleLookup p r l s).device = s.device ∧ (recycleLookup p r l s).restart = s.restart ∧
    (recycleLookup p r l s).alloc = s.alloc ∧ (recycleLookup p r l s).link.lineRate = s.link.lineRate ∧
    (recycleLookup p r l s).link.kept = s.link.kept ∧ (recycleLookup p r l s).link.state = s.link.state ∧
    (recycleLookup p r l s).link.epoch = s.link.epoch ∧ (recycleLookup p r l s).link.requests = s.link.requests ∧
    (recycleLookup p r l s).link.engine = s.link.engine ∧ (recycleLookup p r l s).events.readyCause = s.events.readyCause ∧
    (∀ i, ((recycleLookup p r l s).region i).params = (s.region i).params) ∧
    (∀ i, ((recycleLookup p r l s).region i).eventMask = (s.region i).eventMask) ∧
    (∀ i, ((recycleLookup p r l s).region i).committed = (s.region i).committed) ∧
    (∀ i, ((recycleLookup p r l s).region i).boundPort = (s.region i).boundPort) ∧
    (∀ i, ((recycleLookup p r l s).region i).suspect = (s.region i).suspect) ∧
    (∀ i, ((recycleLookup p r l s).region i).faultPage = (s.region i).faultPage) ∧
    (∀ i, ((recycleLookup p r l s).port i).binding = (s.port i).binding) ∧
    (∀ i, ((recycleLookup p r l s).port i).markerEnable = (s.port i).markerEnable) ∧
    (∀ i, ((recycleLookup p r l s).port i).overrunEnable = (s.port i).overrunEnable) ∧
    (∀ i, ((recycleLookup p r l s).port i).halted = (s.port i).halted) ∧
    (∀ i, ((recycleLookup p r l s).port i).assembly = (s.port i).assembly) ∧
    (∀ i, ((recycleLookup p r l s).port i).counts = (s.port i).counts) ∧
    (∀ i, ((recycleLookup p r l s).window i).region = (s.window i).region) ∧
    (∀ i, ((recycleLookup p r l s).window i).first = (s.window i).first) ∧
    (∀ i, ((recycleLookup p r l s).window i).last = (s.window i).last) ∧
    (∀ i, (recycleLookup p r l s).reservation i = s.reservation i) ∧ (∀ i, (recycleLookup p r l s).owned i = s.owned i) ∧
    (recycleLookup p r l s).store.memory = s.store.memory ∧
    (recycleLookup p r l s).store.errors = s.store.errors ∧ (recycleLookup p r l s).store.condition = s.store.condition := by
  unfold recycleLookup
  dsimp only
  repeat' split
  all_goals simp
  all_goals repeat' apply And.intro
  all_goals intro i
  all_goals split <;> simp_all

@[simp] theorem wrapThenRecycle_frame (p : PortId) (r : RegionId) (l : Nat) :
    (wrapThenRecycle p r l s).pending = s.pending ∧ (wrapThenRecycle p r l s).freeCount = s.freeCount ∧
    (wrapThenRecycle p r l s).device = s.device ∧ (wrapThenRecycle p r l s).restart = s.restart ∧
    (wrapThenRecycle p r l s).alloc = s.alloc ∧ (wrapThenRecycle p r l s).link.lineRate = s.link.lineRate ∧
    (wrapThenRecycle p r l s).link.kept = s.link.kept ∧ (wrapThenRecycle p r l s).link.state = s.link.state ∧
    (wrapThenRecycle p r l s).link.epoch = s.link.epoch ∧ (wrapThenRecycle p r l s).link.requests = s.link.requests ∧
    (wrapThenRecycle p r l s).link.engine = s.link.engine ∧
    (wrapThenRecycle p r l s).events.readyCause = s.events.readyCause ∧
    (∀ i, ((wrapThenRecycle p r l s).region i).params = (s.region i).params) ∧
    (∀ i, ((wrapThenRecycle p r l s).region i).eventMask = (s.region i).eventMask) ∧
    (∀ i, ((wrapThenRecycle p r l s).region i).committed = (s.region i).committed) ∧
    (∀ i, ((wrapThenRecycle p r l s).region i).boundPort = (s.region i).boundPort) ∧
    (∀ i, ((wrapThenRecycle p r l s).region i).suspect = (s.region i).suspect) ∧
    (∀ i, ((wrapThenRecycle p r l s).region i).faultPage = (s.region i).faultPage) ∧
    (∀ i, ((wrapThenRecycle p r l s).port i).binding = (s.port i).binding) ∧
    (∀ i, ((wrapThenRecycle p r l s).port i).markerEnable = (s.port i).markerEnable) ∧
    (∀ i, ((wrapThenRecycle p r l s).port i).overrunEnable = (s.port i).overrunEnable) ∧
    (∀ i, ((wrapThenRecycle p r l s).port i).halted = (s.port i).halted) ∧
    (∀ i, ((wrapThenRecycle p r l s).port i).assembly = (s.port i).assembly) ∧
    (∀ i, ((wrapThenRecycle p r l s).port i).counts = (s.port i).counts) ∧
    (∀ i, ((wrapThenRecycle p r l s).window i).region = (s.window i).region) ∧
    (∀ i, ((wrapThenRecycle p r l s).window i).first = (s.window i).first) ∧
    (∀ i, ((wrapThenRecycle p r l s).window i).last = (s.window i).last) ∧
    (∀ i, (wrapThenRecycle p r l s).reservation i = s.reservation i) ∧
    (∀ i, (wrapThenRecycle p r l s).owned i = s.owned i) ∧ (wrapThenRecycle p r l s).store.memory = s.store.memory ∧
    (wrapThenRecycle p r l s).store.errors = s.store.errors ∧
    (wrapThenRecycle p r l s).store.condition = s.store.condition := by
  unfold wrapThenRecycle
  simp
  all_goals repeat' apply And.intro
  all_goals intro i
  all_goals split <;> simp_all

@[simp] theorem countRolling_frame (r : RegionId) (l : Nat) :
    (countRolling r l s).pending = s.pending ∧ (countRolling r l s).freeCount = s.freeCount ∧
    (countRolling r l s).device = s.device ∧ (countRolling r l s).restart = s.restart ∧ (countRolling r l s).link = s.link ∧
    (countRolling r l s).events = s.events ∧ (countRolling r l s).store = s.store ∧ (countRolling r l s).alloc = s.alloc ∧
    (countRolling r l s).cache = s.cache ∧ (countRolling r l s).ports = s.ports ∧ (countRolling r l s).windows = s.windows ∧
    (∀ i, ((countRolling r l s).region i).params = (s.region i).params) ∧
    (∀ i, ((countRolling r l s).region i).eventMask = (s.region i).eventMask) ∧
    (∀ i, ((countRolling r l s).region i).committed = (s.region i).committed) ∧
    (∀ i, ((countRolling r l s).region i).boundPort = (s.region i).boundPort) ∧
    (∀ i, ((countRolling r l s).region i).suspect = (s.region i).suspect) ∧
    (∀ i, ((countRolling r l s).region i).faultPage = (s.region i).faultPage) ∧
    (∀ i, (countRolling r l s).port i = s.port i) ∧ (∀ i, (countRolling r l s).window i = s.window i) ∧
    (∀ i, (countRolling r l s).reservation i = s.reservation i) ∧ (∀ i, (countRolling r l s).owned i = s.owned i) := by
  unfold countRolling
  dsimp only
  repeat' split
  all_goals simp
  all_goals repeat' apply And.intro
  all_goals intro i
  all_goals split <;> simp_all

@[simp] theorem freshPage_frame (p : PortId) (r : RegionId) (l page : Nat) :
    (freshPage p r l page s).pending = s.pending ∧ (freshPage p r l page s).freeCount = s.freeCount ∧
    (freshPage p r l page s).device = s.device ∧ (freshPage p r l page s).restart = s.restart ∧
    (freshPage p r l page s).link = s.link ∧ (freshPage p r l page s).events = s.events ∧
    (freshPage p r l page s).alloc = s.alloc ∧ (freshPage p r l page s).windows = s.windows ∧
    (∀ i, ((freshPage p r l page s).region i).params = (s.region i).params) ∧
    (∀ i, ((freshPage p r l page s).region i).eventMask = (s.region i).eventMask) ∧
    (∀ i, ((freshPage p r l page s).region i).committed = (s.region i).committed) ∧
    (∀ i, ((freshPage p r l page s).region i).boundPort = (s.region i).boundPort) ∧
    (∀ i, ((freshPage p r l page s).region i).suspect = (s.region i).suspect) ∧
    (∀ i, ((freshPage p r l page s).region i).faultPage = (s.region i).faultPage) ∧
    (∀ i, ((freshPage p r l page s).port i).binding = (s.port i).binding) ∧
    (∀ i, ((freshPage p r l page s).port i).markerEnable = (s.port i).markerEnable) ∧
    (∀ i, ((freshPage p r l page s).port i).overrunEnable = (s.port i).overrunEnable) ∧
    (∀ i, ((freshPage p r l page s).port i).halted = (s.port i).halted) ∧
    (∀ i, ((freshPage p r l page s).port i).assembly = (s.port i).assembly) ∧
    (∀ i, ((freshPage p r l page s).port i).counts = (s.port i).counts) ∧
    (∀ i, (freshPage p r l page s).window i = s.window i) ∧
    (∀ i, (freshPage p r l page s).reservation i = s.reservation i) ∧ (∀ i, (freshPage p r l page s).owned i = s.owned i) ∧
    (freshPage p r l page s).store.memory = s.store.memory ∧
    (freshPage p r l page s).store.errors = s.store.errors ∧ (freshPage p r l page s).store.condition = s.store.condition := by
  unfold freshPage
  simp
  all_goals repeat' apply And.intro
  all_goals intro i
  all_goals split <;> simp_all

theorem claimPage_frame {r : RegionId} {s t : State} {page : Nat} (h : claimPage r s = some (page, t)) :
    t.pending = s.pending ∧ t.freeCount = s.freeCount ∧ t.device = s.device ∧ t.restart = s.restart ∧ t.store = s.store ∧
    t.cache = s.cache ∧ t.regions = s.regions ∧ t.ports = s.ports ∧ t.windows = s.windows ∧
    t.link.lineRate = s.link.lineRate ∧ t.link.kept = s.link.kept ∧ t.link.state = s.link.state ∧
    t.link.epoch = s.link.epoch ∧ t.link.requests = s.link.requests ∧ t.link.engine = s.link.engine ∧
    t.events.readyCause = s.events.readyCause ∧ (∀ i, t.region i = s.region i) ∧ (∀ i, t.port i = s.port i) ∧
    (∀ i, t.window i = s.window i) := by
  unfold claimPage at h
  repeat' split at h
  all_goals simp at h
  all_goals obtain ⟨-, rfl⟩ := h
  all_goals simp

theorem reserve_frame {r : RegionId} {n : Nat} {s t : State} (h : reserve r n s = some t) :
    t.pending = s.pending ∧ t.freeCount = s.freeCount ∧ t.device = s.device ∧ t.restart = s.restart ∧ t.store = s.store ∧
    t.cache = s.cache ∧ t.regions = s.regions ∧ t.ports = s.ports ∧ t.windows = s.windows ∧
    t.link.lineRate = s.link.lineRate ∧ t.link.kept = s.link.kept ∧ t.link.state = s.link.state ∧
    t.link.epoch = s.link.epoch ∧ t.link.requests = s.link.requests ∧ t.link.engine = s.link.engine ∧
    t.events.readyCause = s.events.readyCause ∧ (∀ i, t.region i = s.region i) ∧ (∀ i, t.port i = s.port i) ∧
    (∀ i, t.window i = s.window i) := by
  unfold reserve at h
  split at h
  · simp at h
    subst h
    simp
  · simp at h

@[simp] theorem pageClaim_frame (p : PortId) (r : RegionId) (l : Nat) :
    (pageClaim p r l s).pending = s.pending ∧ (pageClaim p r l s).freeCount = s.freeCount ∧
    (pageClaim p r l s).device = s.device ∧ (pageClaim p r l s).restart = s.restart ∧
    (pageClaim p r l s).link.lineRate = s.link.lineRate ∧ (pageClaim p r l s).link.kept = s.link.kept ∧
    (pageClaim p r l s).link.state = s.link.state ∧ (pageClaim p r l s).link.epoch = s.link.epoch ∧
    (pageClaim p r l s).link.requests = s.link.requests ∧ (pageClaim p r l s).link.engine = s.link.engine ∧
    (pageClaim p r l s).events.readyCause = s.events.readyCause ∧
    (∀ i, ((pageClaim p r l s).region i).params = (s.region i).params) ∧
    (∀ i, ((pageClaim p r l s).region i).eventMask = (s.region i).eventMask) ∧
    (∀ i, ((pageClaim p r l s).region i).committed = (s.region i).committed) ∧
    (∀ i, ((pageClaim p r l s).region i).boundPort = (s.region i).boundPort) ∧
    (∀ i, ((pageClaim p r l s).region i).suspect = (s.region i).suspect) ∧
    (∀ i, ((pageClaim p r l s).region i).faultPage = (s.region i).faultPage) ∧
    (∀ i, ((pageClaim p r l s).port i).binding = (s.port i).binding) ∧
    (∀ i, ((pageClaim p r l s).port i).markerEnable = (s.port i).markerEnable) ∧
    (∀ i, ((pageClaim p r l s).port i).overrunEnable = (s.port i).overrunEnable) ∧
    (∀ i, ((pageClaim p r l s).port i).halted = (s.port i).halted) ∧
    (∀ i, ((pageClaim p r l s).port i).assembly = (s.port i).assembly) ∧
    (∀ i, ((pageClaim p r l s).port i).counts = (s.port i).counts) ∧
    (∀ i, ((pageClaim p r l s).window i).region = (s.window i).region) ∧
    (∀ i, ((pageClaim p r l s).window i).first = (s.window i).first) ∧
    (∀ i, ((pageClaim p r l s).window i).last = (s.window i).last) ∧ (pageClaim p r l s).store.memory = s.store.memory ∧
    (pageClaim p r l s).store.errors = s.store.errors ∧
    (pageClaim p r l s).store.condition = s.store.condition := by
  unfold pageClaim
  dsimp only
  repeat' split
  · next h => have := claimPage_frame h; simp [this]
  all_goals simp

@[simp] theorem takeHead_frame (p : PortId) :
    (takeHead p s).pending = s.pending ∧ (takeHead p s).freeCount = s.freeCount ∧ (takeHead p s).device = s.device ∧
    (takeHead p s).restart = s.restart ∧ (takeHead p s).link.lineRate = s.link.lineRate ∧
    (takeHead p s).link.kept = s.link.kept ∧ (takeHead p s).link.state = s.link.state ∧
    (takeHead p s).link.epoch = s.link.epoch ∧ (takeHead p s).link.requests = s.link.requests ∧
    (takeHead p s).link.engine = s.link.engine ∧ (takeHead p s).events.readyCause = s.events.readyCause ∧
    (∀ i, ((takeHead p s).region i).params = (s.region i).params) ∧
    (∀ i, ((takeHead p s).region i).eventMask = (s.region i).eventMask) ∧
    (∀ i, ((takeHead p s).region i).committed = (s.region i).committed) ∧
    (∀ i, ((takeHead p s).region i).boundPort = (s.region i).boundPort) ∧
    (∀ i, ((takeHead p s).region i).suspect = (s.region i).suspect) ∧
    (∀ i, ((takeHead p s).region i).faultPage = (s.region i).faultPage) ∧
    (∀ i, ((takeHead p s).port i).binding = (s.port i).binding) ∧
    (∀ i, ((takeHead p s).port i).markerEnable = (s.port i).markerEnable) ∧
    (∀ i, ((takeHead p s).port i).overrunEnable = (s.port i).overrunEnable) ∧
    (∀ i, ((takeHead p s).port i).halted = (s.port i).halted) ∧
    (∀ i, ((takeHead p s).port i).assembly = (s.port i).assembly) ∧
    (∀ i, ((takeHead p s).port i).counts = (s.port i).counts) ∧
    (∀ i, ((takeHead p s).window i).region = (s.window i).region) ∧
    (∀ i, ((takeHead p s).window i).first = (s.window i).first) ∧
    (∀ i, ((takeHead p s).window i).last = (s.window i).last) ∧ (takeHead p s).store.memory = s.store.memory ∧
    (takeHead p s).store.errors = s.store.errors ∧
    (takeHead p s).store.condition = s.store.condition := by
  unfold takeHead
  dsimp only
  repeat' split
  all_goals simp

@[simp] theorem capturingNotice_frame (p : PortId) :
    (capturingNotice p s).pending = s.pending ∧ (capturingNotice p s).freeCount = s.freeCount ∧
    (capturingNotice p s).device = s.device ∧ (capturingNotice p s).restart = s.restart ∧
    (capturingNotice p s).link.lineRate = s.link.lineRate ∧ (capturingNotice p s).link.kept = s.link.kept ∧
    (capturingNotice p s).link.state = s.link.state ∧ (capturingNotice p s).link.epoch = s.link.epoch ∧
    (capturingNotice p s).link.requests = s.link.requests ∧ (capturingNotice p s).link.engine = s.link.engine ∧
    (capturingNotice p s).events.readyCause = s.events.readyCause ∧
    (∀ i, ((capturingNotice p s).region i).params = (s.region i).params) ∧
    (∀ i, ((capturingNotice p s).region i).eventMask = (s.region i).eventMask) ∧
    (∀ i, ((capturingNotice p s).region i).committed = (s.region i).committed) ∧
    (∀ i, ((capturingNotice p s).region i).boundPort = (s.region i).boundPort) ∧
    (∀ i, ((capturingNotice p s).region i).suspect = (s.region i).suspect) ∧
    (∀ i, ((capturingNotice p s).region i).faultPage = (s.region i).faultPage) ∧
    (∀ i, ((capturingNotice p s).port i).binding = (s.port i).binding) ∧
    (∀ i, ((capturingNotice p s).port i).markerEnable = (s.port i).markerEnable) ∧
    (∀ i, ((capturingNotice p s).port i).overrunEnable = (s.port i).overrunEnable) ∧
    (∀ i, ((capturingNotice p s).port i).halted = (s.port i).halted) ∧
    (∀ i, ((capturingNotice p s).port i).assembly = (s.port i).assembly) ∧
    (∀ i, ((capturingNotice p s).port i).counts = (s.port i).counts) ∧
    (∀ i, ((capturingNotice p s).window i).region = (s.window i).region) ∧
    (∀ i, ((capturingNotice p s).window i).first = (s.window i).first) ∧
    (∀ i, ((capturingNotice p s).window i).last = (s.window i).last) ∧ (capturingNotice p s).store.memory = s.store.memory ∧
    (capturingNotice p s).store.errors = s.store.errors ∧
    (capturingNotice p s).store.condition = s.store.condition := by
  unfold capturingNotice
  simp
  all_goals repeat' apply And.intro
  all_goals intro i
  all_goals split <;> simp_all

@[simp] theorem stopNotice_frame (p : PortId) :
    (stopNotice p s).pending = s.pending ∧ (stopNotice p s).freeCount = s.freeCount ∧ (stopNotice p s).device = s.device ∧
    (stopNotice p s).restart = s.restart ∧ (stopNotice p s).link = s.link ∧ (stopNotice p s).events = s.events ∧
    (stopNotice p s).store = s.store ∧ (stopNotice p s).alloc = s.alloc ∧ (stopNotice p s).cache = s.cache ∧
    (stopNotice p s).regions = s.regions ∧ (stopNotice p s).windows = s.windows ∧
    (∀ i, (stopNotice p s).region i = s.region i) ∧ (∀ i, ((stopNotice p s).port i).binding = (s.port i).binding) ∧
    (∀ i, ((stopNotice p s).port i).markerEnable = (s.port i).markerEnable) ∧
    (∀ i, ((stopNotice p s).port i).overrunEnable = (s.port i).overrunEnable) ∧
    (∀ i, ((stopNotice p s).port i).halted = (s.port i).halted) ∧
    (∀ i, ((stopNotice p s).port i).assembly = (s.port i).assembly) ∧ (∀ i, (stopNotice p s).window i = s.window i) ∧
    (∀ i, (stopNotice p s).reservation i = s.reservation i) ∧ (∀ i, (stopNotice p s).owned i = s.owned i) := by
  unfold stopNotice
  simp
  all_goals repeat' apply And.intro
  all_goals intro i
  all_goals split <;> simp_all

@[simp] theorem stopRegionWriter_frame (r : RegionId) :
    (stopRegionWriter r s).pending = s.pending ∧ (stopRegionWriter r s).freeCount = s.freeCount ∧
    (stopRegionWriter r s).device = s.device ∧ (stopRegionWriter r s).restart = s.restart ∧
    (stopRegionWriter r s).link = s.link ∧ (stopRegionWriter r s).events = s.events ∧
    (stopRegionWriter r s).store = s.store ∧ (stopRegionWriter r s).alloc = s.alloc ∧
    (stopRegionWriter r s).cache = s.cache ∧ (stopRegionWriter r s).regions = s.regions ∧
    (stopRegionWriter r s).windows = s.windows ∧ (∀ i, (stopRegionWriter r s).region i = s.region i) ∧
    (∀ i, ((stopRegionWriter r s).port i).binding = (s.port i).binding) ∧
    (∀ i, ((stopRegionWriter r s).port i).markerEnable = (s.port i).markerEnable) ∧
    (∀ i, ((stopRegionWriter r s).port i).overrunEnable = (s.port i).overrunEnable) ∧
    (∀ i, ((stopRegionWriter r s).port i).halted = (s.port i).halted) ∧
    (∀ i, ((stopRegionWriter r s).port i).assembly = (s.port i).assembly) ∧
    (∀ i, (stopRegionWriter r s).window i = s.window i) ∧ (∀ i, (stopRegionWriter r s).reservation i = s.reservation i) ∧
    (∀ i, (stopRegionWriter r s).owned i = s.owned i) := by
  unfold stopRegionWriter
  repeat' split
  all_goals simp

@[simp] theorem pinEndNotice_frame (r : RegionId) :
    (pinEndNotice r s).pending = s.pending ∧ (pinEndNotice r s).freeCount = s.freeCount ∧
    (pinEndNotice r s).device = s.device ∧ (pinEndNotice r s).restart = s.restart ∧ (pinEndNotice r s).alloc = s.alloc ∧
    (pinEndNotice r s).cache = s.cache ∧ (pinEndNotice r s).link.lineRate = s.link.lineRate ∧
    (pinEndNotice r s).link.kept = s.link.kept ∧ (pinEndNotice r s).link.state = s.link.state ∧
    (pinEndNotice r s).link.epoch = s.link.epoch ∧ (pinEndNotice r s).link.requests = s.link.requests ∧
    (pinEndNotice r s).link.engine = s.link.engine ∧ (pinEndNotice r s).events.readyCause = s.events.readyCause ∧
    (∀ i, ((pinEndNotice r s).region i).params = (s.region i).params) ∧
    (∀ i, ((pinEndNotice r s).region i).eventMask = (s.region i).eventMask) ∧
    (∀ i, ((pinEndNotice r s).region i).committed = (s.region i).committed) ∧
    (∀ i, ((pinEndNotice r s).region i).boundPort = (s.region i).boundPort) ∧
    (∀ i, ((pinEndNotice r s).region i).suspect = (s.region i).suspect) ∧
    (∀ i, ((pinEndNotice r s).region i).faultPage = (s.region i).faultPage) ∧
    (∀ i, ((pinEndNotice r s).port i).binding = (s.port i).binding) ∧
    (∀ i, ((pinEndNotice r s).port i).markerEnable = (s.port i).markerEnable) ∧
    (∀ i, ((pinEndNotice r s).port i).overrunEnable = (s.port i).overrunEnable) ∧
    (∀ i, ((pinEndNotice r s).port i).halted = (s.port i).halted) ∧
    (∀ i, ((pinEndNotice r s).port i).assembly = (s.port i).assembly) ∧
    (∀ i, ((pinEndNotice r s).port i).counts = (s.port i).counts) ∧
    (∀ i, ((pinEndNotice r s).window i).region = (s.window i).region) ∧
    (∀ i, ((pinEndNotice r s).window i).first = (s.window i).first) ∧
    (∀ i, ((pinEndNotice r s).window i).last = (s.window i).last) ∧
    (∀ i, (pinEndNotice r s).reservation i = s.reservation i) ∧ (∀ i, (pinEndNotice r s).owned i = s.owned i) ∧
    (pinEndNotice r s).store.memory = s.store.memory ∧
    (pinEndNotice r s).store.errors = s.store.errors ∧ (pinEndNotice r s).store.condition = s.store.condition := by
  unfold pinEndNotice
  repeat' split
  all_goals simp

@[simp] theorem raiseStopped_frame (r : RegionId) :
    (raiseStopped r s).pending = s.pending ∧ (raiseStopped r s).freeCount = s.freeCount ∧
    (raiseStopped r s).device = s.device ∧ (raiseStopped r s).restart = s.restart ∧ (raiseStopped r s).store = s.store ∧
    (raiseStopped r s).alloc = s.alloc ∧ (raiseStopped r s).cache = s.cache ∧ (raiseStopped r s).regions = s.regions ∧
    (raiseStopped r s).ports = s.ports ∧ (raiseStopped r s).windows = s.windows ∧
    (raiseStopped r s).link.lineRate = s.link.lineRate ∧ (raiseStopped r s).link.kept = s.link.kept ∧
    (raiseStopped r s).link.state = s.link.state ∧ (raiseStopped r s).link.epoch = s.link.epoch ∧
    (raiseStopped r s).link.requests = s.link.requests ∧ (raiseStopped r s).link.engine = s.link.engine ∧
    (raiseStopped r s).events.readyCause = s.events.readyCause ∧ (∀ i, (raiseStopped r s).region i = s.region i) ∧
    (∀ i, (raiseStopped r s).port i = s.port i) ∧ (∀ i, (raiseStopped r s).window i = s.window i) ∧
    (∀ i, (raiseStopped r s).reservation i = s.reservation i) ∧ (∀ i, (raiseStopped r s).owned i = s.owned i) := by
  unfold raiseStopped
  simp

@[simp] theorem stopRegion_frame (r : RegionId) (cause : StopCause) :
    (stopRegion r cause s).pending = s.pending ∧ (stopRegion r cause s).freeCount = s.freeCount ∧
    (stopRegion r cause s).device = s.device ∧ (stopRegion r cause s).restart = s.restart ∧
    (stopRegion r cause s).store = s.store ∧ (stopRegion r cause s).cache = s.cache ∧
    (stopRegion r cause s).windows = s.windows ∧ (stopRegion r cause s).link.lineRate = s.link.lineRate ∧
    (stopRegion r cause s).link.kept = s.link.kept ∧ (stopRegion r cause s).link.state = s.link.state ∧
    (stopRegion r cause s).link.epoch = s.link.epoch ∧ (stopRegion r cause s).link.requests = s.link.requests ∧
    (stopRegion r cause s).link.engine = s.link.engine ∧ (stopRegion r cause s).events.readyCause = s.events.readyCause ∧
    (∀ i, ((stopRegion r cause s).region i).params = (s.region i).params) ∧
    (∀ i, ((stopRegion r cause s).region i).eventMask = (s.region i).eventMask) ∧
    (∀ i, ((stopRegion r cause s).region i).committed = (s.region i).committed) ∧
    (∀ i, ((stopRegion r cause s).region i).boundPort = (s.region i).boundPort) ∧
    (∀ i, ((stopRegion r cause s).region i).suspect = (s.region i).suspect) ∧
    (∀ i, ((stopRegion r cause s).region i).faultPage = (s.region i).faultPage) ∧
    (∀ i, ((stopRegion r cause s).port i).binding = (s.port i).binding) ∧
    (∀ i, ((stopRegion r cause s).port i).markerEnable = (s.port i).markerEnable) ∧
    (∀ i, ((stopRegion r cause s).port i).overrunEnable = (s.port i).overrunEnable) ∧
    (∀ i, ((stopRegion r cause s).port i).halted = (s.port i).halted) ∧
    (∀ i, ((stopRegion r cause s).port i).assembly = (s.port i).assembly) ∧
    (∀ i, (stopRegion r cause s).window i = s.window i) := by
  unfold stopRegion
  simp
  all_goals repeat' apply And.intro
  all_goals intro i
  all_goals split <;> simp_all

@[simp] theorem markCheck_frame (r : RegionId) :
    (markCheck r s).pending = s.pending ∧ (markCheck r s).freeCount = s.freeCount ∧ (markCheck r s).device = s.device ∧
    (markCheck r s).restart = s.restart ∧ (markCheck r s).store = s.store ∧ (markCheck r s).alloc = s.alloc ∧
    (markCheck r s).cache = s.cache ∧ (markCheck r s).regions = s.regions ∧ (markCheck r s).ports = s.ports ∧
    (markCheck r s).windows = s.windows ∧ (markCheck r s).link.lineRate = s.link.lineRate ∧
    (markCheck r s).link.kept = s.link.kept ∧ (markCheck r s).link.state = s.link.state ∧
    (markCheck r s).link.epoch = s.link.epoch ∧ (markCheck r s).link.requests = s.link.requests ∧
    (markCheck r s).link.engine = s.link.engine ∧ (markCheck r s).events.readyCause = s.events.readyCause ∧
    (∀ i, (markCheck r s).region i = s.region i) ∧ (∀ i, (markCheck r s).port i = s.port i) ∧
    (∀ i, (markCheck r s).window i = s.window i) ∧ (∀ i, (markCheck r s).reservation i = s.reservation i) ∧
    (∀ i, (markCheck r s).owned i = s.owned i) := by
  unfold markCheck
  dsimp only
  repeat' split
  all_goals simp

@[simp] theorem stopChecks_frame (r : RegionId) :
    (stopChecks r s).pending = s.pending ∧ (stopChecks r s).freeCount = s.freeCount ∧ (stopChecks r s).device = s.device ∧
    (stopChecks r s).restart = s.restart ∧ (stopChecks r s).store = s.store ∧ (stopChecks r s).cache = s.cache ∧
    (stopChecks r s).windows = s.windows ∧ (stopChecks r s).link.lineRate = s.link.lineRate ∧
    (stopChecks r s).link.kept = s.link.kept ∧ (stopChecks r s).link.state = s.link.state ∧
    (stopChecks r s).link.epoch = s.link.epoch ∧ (stopChecks r s).link.requests = s.link.requests ∧
    (stopChecks r s).link.engine = s.link.engine ∧ (stopChecks r s).events.readyCause = s.events.readyCause ∧
    (∀ i, ((stopChecks r s).region i).params = (s.region i).params) ∧
    (∀ i, ((stopChecks r s).region i).eventMask = (s.region i).eventMask) ∧
    (∀ i, ((stopChecks r s).region i).committed = (s.region i).committed) ∧
    (∀ i, ((stopChecks r s).region i).boundPort = (s.region i).boundPort) ∧
    (∀ i, ((stopChecks r s).region i).suspect = (s.region i).suspect) ∧
    (∀ i, ((stopChecks r s).region i).faultPage = (s.region i).faultPage) ∧
    (∀ i, ((stopChecks r s).port i).binding = (s.port i).binding) ∧
    (∀ i, ((stopChecks r s).port i).markerEnable = (s.port i).markerEnable) ∧
    (∀ i, ((stopChecks r s).port i).overrunEnable = (s.port i).overrunEnable) ∧
    (∀ i, ((stopChecks r s).port i).halted = (s.port i).halted) ∧
    (∀ i, ((stopChecks r s).port i).assembly = (s.port i).assembly) ∧ (∀ i, (stopChecks r s).window i = s.window i) := by
  unfold stopChecks
  dsimp only
  repeat' split
  all_goals simp

@[simp] theorem completionReport_frame (r : RegionId) :
    (completionReport r s).pending = s.pending ∧ (completionReport r s).freeCount = s.freeCount ∧
    (completionReport r s).device = s.device ∧ (completionReport r s).restart = s.restart ∧
    (completionReport r s).store = s.store ∧ (completionReport r s).cache = s.cache ∧
    (completionReport r s).windows = s.windows ∧ (completionReport r s).link.lineRate = s.link.lineRate ∧
    (completionReport r s).link.kept = s.link.kept ∧ (completionReport r s).link.state = s.link.state ∧
    (completionReport r s).link.epoch = s.link.epoch ∧ (completionReport r s).link.requests = s.link.requests ∧
    (completionReport r s).link.engine = s.link.engine ∧ (completionReport r s).events.readyCause = s.events.readyCause ∧
    (∀ i, ((completionReport r s).region i).params = (s.region i).params) ∧
    (∀ i, ((completionReport r s).region i).eventMask = (s.region i).eventMask) ∧
    (∀ i, ((completionReport r s).region i).boundPort = (s.region i).boundPort) ∧
    (∀ i, ((completionReport r s).region i).suspect = (s.region i).suspect) ∧
    (∀ i, ((completionReport r s).region i).faultPage = (s.region i).faultPage) ∧
    (∀ i, ((completionReport r s).port i).binding = (s.port i).binding) ∧
    (∀ i, ((completionReport r s).port i).markerEnable = (s.port i).markerEnable) ∧
    (∀ i, ((completionReport r s).port i).overrunEnable = (s.port i).overrunEnable) ∧
    (∀ i, ((completionReport r s).port i).halted = (s.port i).halted) ∧
    (∀ i, ((completionReport r s).port i).assembly = (s.port i).assembly) ∧
    (∀ i, (completionReport r s).window i = s.window i) := by
  unfold completionReport
  dsimp only
  repeat' split
  all_goals simp
  all_goals repeat' apply And.intro
  all_goals intro i
  all_goals split <;> simp_all

@[simp] theorem raiseDirectoryError_frame (r : RegionId) :
    (raiseDirectoryError r s).pending = s.pending ∧ (raiseDirectoryError r s).freeCount = s.freeCount ∧
    (raiseDirectoryError r s).device = s.device ∧ (raiseDirectoryError r s).restart = s.restart ∧
    (raiseDirectoryError r s).store = s.store ∧ (raiseDirectoryError r s).alloc = s.alloc ∧
    (raiseDirectoryError r s).cache = s.cache ∧ (raiseDirectoryError r s).regions = s.regions ∧
    (raiseDirectoryError r s).ports = s.ports ∧ (raiseDirectoryError r s).windows = s.windows ∧
    (raiseDirectoryError r s).link.lineRate = s.link.lineRate ∧ (raiseDirectoryError r s).link.kept = s.link.kept ∧
    (raiseDirectoryError r s).link.state = s.link.state ∧ (raiseDirectoryError r s).link.epoch = s.link.epoch ∧
    (raiseDirectoryError r s).link.requests = s.link.requests ∧ (raiseDirectoryError r s).link.engine = s.link.engine ∧
    (raiseDirectoryError r s).events.readyCause = s.events.readyCause ∧
    (∀ i, (raiseDirectoryError r s).region i = s.region i) ∧ (∀ i, (raiseDirectoryError r s).port i = s.port i) ∧
    (∀ i, (raiseDirectoryError r s).window i = s.window i) ∧
    (∀ i, (raiseDirectoryError r s).reservation i = s.reservation i) ∧ (∀ i, (raiseDirectoryError r s).owned i = s.owned i) := by
  unfold raiseDirectoryError
  simp

@[simp] theorem faultReport_frame (r : RegionId) :
    (faultReport r s).pending = s.pending ∧ (faultReport r s).freeCount = s.freeCount ∧
    (faultReport r s).device = s.device ∧ (faultReport r s).restart = s.restart ∧ (faultReport r s).store = s.store ∧
    (faultReport r s).link.lineRate = s.link.lineRate ∧ (faultReport r s).link.kept = s.link.kept ∧
    (faultReport r s).link.state = s.link.state ∧ (faultReport r s).link.epoch = s.link.epoch ∧
    (faultReport r s).link.requests = s.link.requests ∧ (faultReport r s).link.engine = s.link.engine ∧
    (faultReport r s).events.readyCause = s.events.readyCause ∧
    (∀ i, ((faultReport r s).region i).params = (s.region i).params) ∧
    (∀ i, ((faultReport r s).region i).eventMask = (s.region i).eventMask) ∧
    (∀ i, ((faultReport r s).region i).committed = (s.region i).committed) ∧
    (∀ i, ((faultReport r s).region i).boundPort = (s.region i).boundPort) ∧
    (∀ i, ((faultReport r s).port i).binding = (s.port i).binding) ∧
    (∀ i, ((faultReport r s).port i).markerEnable = (s.port i).markerEnable) ∧
    (∀ i, ((faultReport r s).port i).overrunEnable = (s.port i).overrunEnable) ∧
    (∀ i, ((faultReport r s).port i).halted = (s.port i).halted) ∧
    (∀ i, ((faultReport r s).port i).assembly = (s.port i).assembly) ∧
    (∀ i, ((faultReport r s).window i).region = (s.window i).region) ∧
    (∀ i, ((faultReport r s).window i).first = (s.window i).first) ∧
    (∀ i, ((faultReport r s).window i).last = (s.window i).last) := by
  unfold faultReport
  dsimp only
  repeat' split
  all_goals simp
  all_goals repeat' apply And.intro
  all_goals intro i
  all_goals split <;> simp_all

@[simp] theorem becomeClosed_frame (w : WindowId) :
    (becomeClosed w s).pending = s.pending ∧ (becomeClosed w s).freeCount = s.freeCount ∧
    (becomeClosed w s).device = s.device ∧ (becomeClosed w s).restart = s.restart ∧ (becomeClosed w s).alloc = s.alloc ∧
    (becomeClosed w s).cache = s.cache ∧ (becomeClosed w s).link.lineRate = s.link.lineRate ∧
    (becomeClosed w s).link.kept = s.link.kept ∧ (becomeClosed w s).link.state = s.link.state ∧
    (becomeClosed w s).link.epoch = s.link.epoch ∧ (becomeClosed w s).link.requests = s.link.requests ∧
    (becomeClosed w s).link.engine = s.link.engine ∧ (becomeClosed w s).events.readyCause = s.events.readyCause ∧
    (∀ i, ((becomeClosed w s).region i).params = (s.region i).params) ∧
    (∀ i, ((becomeClosed w s).region i).eventMask = (s.region i).eventMask) ∧
    (∀ i, ((becomeClosed w s).region i).committed = (s.region i).committed) ∧
    (∀ i, ((becomeClosed w s).region i).boundPort = (s.region i).boundPort) ∧
    (∀ i, ((becomeClosed w s).region i).suspect = (s.region i).suspect) ∧
    (∀ i, ((becomeClosed w s).region i).faultPage = (s.region i).faultPage) ∧
    (∀ i, ((becomeClosed w s).port i).binding = (s.port i).binding) ∧
    (∀ i, ((becomeClosed w s).port i).markerEnable = (s.port i).markerEnable) ∧
    (∀ i, ((becomeClosed w s).port i).overrunEnable = (s.port i).overrunEnable) ∧
    (∀ i, ((becomeClosed w s).port i).halted = (s.port i).halted) ∧
    (∀ i, ((becomeClosed w s).port i).assembly = (s.port i).assembly) ∧
    (∀ i, ((becomeClosed w s).port i).counts = (s.port i).counts) ∧
    (∀ i, ((becomeClosed w s).window i).region = (s.window i).region) ∧
    (∀ i, ((becomeClosed w s).window i).first = (s.window i).first) ∧
    (∀ i, ((becomeClosed w s).window i).last = (s.window i).last) ∧
    (∀ i, (becomeClosed w s).reservation i = s.reservation i) ∧ (∀ i, (becomeClosed w s).owned i = s.owned i) ∧
    (becomeClosed w s).store.memory = s.store.memory ∧
    (becomeClosed w s).store.errors = s.store.errors ∧ (becomeClosed w s).store.condition = s.store.condition := by
  unfold becomeClosed
  dsimp only
  repeat' split
  all_goals simp
  all_goals repeat' apply And.intro
  all_goals intro i
  all_goals split <;> simp_all

@[simp] theorem closeAfterFetch_frame (w : WindowId) :
    (closeAfterFetch w s).pending = s.pending ∧ (closeAfterFetch w s).freeCount = s.freeCount ∧
    (closeAfterFetch w s).device = s.device ∧ (closeAfterFetch w s).restart = s.restart ∧
    (closeAfterFetch w s).alloc = s.alloc ∧ (closeAfterFetch w s).cache = s.cache ∧
    (closeAfterFetch w s).link.lineRate = s.link.lineRate ∧ (closeAfterFetch w s).link.kept = s.link.kept ∧
    (closeAfterFetch w s).link.state = s.link.state ∧ (closeAfterFetch w s).link.epoch = s.link.epoch ∧
    (closeAfterFetch w s).link.requests = s.link.requests ∧ (closeAfterFetch w s).link.engine = s.link.engine ∧
    (closeAfterFetch w s).events.readyCause = s.events.readyCause ∧
    (∀ i, ((closeAfterFetch w s).region i).params = (s.region i).params) ∧
    (∀ i, ((closeAfterFetch w s).region i).eventMask = (s.region i).eventMask) ∧
    (∀ i, ((closeAfterFetch w s).region i).committed = (s.region i).committed) ∧
    (∀ i, ((closeAfterFetch w s).region i).boundPort = (s.region i).boundPort) ∧
    (∀ i, ((closeAfterFetch w s).region i).suspect = (s.region i).suspect) ∧
    (∀ i, ((closeAfterFetch w s).region i).faultPage = (s.region i).faultPage) ∧
    (∀ i, ((closeAfterFetch w s).port i).binding = (s.port i).binding) ∧
    (∀ i, ((closeAfterFetch w s).port i).markerEnable = (s.port i).markerEnable) ∧
    (∀ i, ((closeAfterFetch w s).port i).overrunEnable = (s.port i).overrunEnable) ∧
    (∀ i, ((closeAfterFetch w s).port i).halted = (s.port i).halted) ∧
    (∀ i, ((closeAfterFetch w s).port i).assembly = (s.port i).assembly) ∧
    (∀ i, ((closeAfterFetch w s).port i).counts = (s.port i).counts) ∧
    (∀ i, ((closeAfterFetch w s).window i).region = (s.window i).region) ∧
    (∀ i, ((closeAfterFetch w s).window i).first = (s.window i).first) ∧
    (∀ i, ((closeAfterFetch w s).window i).last = (s.window i).last) ∧
    (∀ i, (closeAfterFetch w s).reservation i = s.reservation i) ∧ (∀ i, (closeAfterFetch w s).owned i = s.owned i) ∧
    (closeAfterFetch w s).store.memory = s.store.memory ∧
    (closeAfterFetch w s).store.errors = s.store.errors ∧ (closeAfterFetch w s).store.condition = s.store.condition := by
  unfold closeAfterFetch
  dsimp only
  repeat' split
  all_goals simp

@[simp] theorem fetchEnd_frame (w : WindowId) (f : Fetch) (status : Status) (records : List (List Byte)) :
    (fetchEnd w f status records s).pending = s.pending ∧ (fetchEnd w f status records s).freeCount = s.freeCount ∧
    (fetchEnd w f status records s).device = s.device ∧ (fetchEnd w f status records s).restart = s.restart ∧
    (fetchEnd w f status records s).alloc = s.alloc ∧ (fetchEnd w f status records s).cache = s.cache ∧
    (fetchEnd w f status records s).link.lineRate = s.link.lineRate ∧
    (fetchEnd w f status records s).link.kept = s.link.kept ∧ (fetchEnd w f status records s).link.state = s.link.state ∧
    (fetchEnd w f status records s).link.epoch = s.link.epoch ∧
    (fetchEnd w f status records s).link.requests = s.link.requests ∧
    (fetchEnd w f status records s).link.engine = s.link.engine ∧
    (fetchEnd w f status records s).events.readyCause = s.events.readyCause ∧
    (∀ i, ((fetchEnd w f status records s).region i).params = (s.region i).params) ∧
    (∀ i, ((fetchEnd w f status records s).region i).eventMask = (s.region i).eventMask) ∧
    (∀ i, ((fetchEnd w f status records s).region i).committed = (s.region i).committed) ∧
    (∀ i, ((fetchEnd w f status records s).region i).boundPort = (s.region i).boundPort) ∧
    (∀ i, ((fetchEnd w f status records s).region i).suspect = (s.region i).suspect) ∧
    (∀ i, ((fetchEnd w f status records s).region i).faultPage = (s.region i).faultPage) ∧
    (∀ i, ((fetchEnd w f status records s).port i).binding = (s.port i).binding) ∧
    (∀ i, ((fetchEnd w f status records s).port i).markerEnable = (s.port i).markerEnable) ∧
    (∀ i, ((fetchEnd w f status records s).port i).overrunEnable = (s.port i).overrunEnable) ∧
    (∀ i, ((fetchEnd w f status records s).port i).halted = (s.port i).halted) ∧
    (∀ i, ((fetchEnd w f status records s).port i).assembly = (s.port i).assembly) ∧
    (∀ i, ((fetchEnd w f status records s).port i).counts = (s.port i).counts) ∧
    (∀ i, ((fetchEnd w f status records s).window i).region = (s.window i).region) ∧
    (∀ i, ((fetchEnd w f status records s).window i).first = (s.window i).first) ∧
    (∀ i, ((fetchEnd w f status records s).window i).last = (s.window i).last) ∧
    (∀ i, (fetchEnd w f status records s).reservation i = s.reservation i) ∧
    (∀ i, (fetchEnd w f status records s).owned i = s.owned i) ∧
    (fetchEnd w f status records s).store.memory = s.store.memory ∧
    (fetchEnd w f status records s).store.errors = s.store.errors ∧
    (fetchEnd w f status records s).store.condition = s.store.condition := by
  unfold fetchEnd
  dsimp only
  repeat' split
  all_goals simp
  all_goals repeat' apply And.intro
  all_goals intro i
  all_goals split <;> simp_all

@[simp] theorem fetchEndByCause_frame (w : WindowId) (f : Fetch) (cause : EndCause) :
    (fetchEndByCause w f cause s).pending = s.pending ∧ (fetchEndByCause w f cause s).freeCount = s.freeCount ∧
    (fetchEndByCause w f cause s).device = s.device ∧ (fetchEndByCause w f cause s).restart = s.restart ∧
    (fetchEndByCause w f cause s).alloc = s.alloc ∧ (fetchEndByCause w f cause s).cache = s.cache ∧
    (fetchEndByCause w f cause s).link.lineRate = s.link.lineRate ∧ (fetchEndByCause w f cause s).link.kept = s.link.kept ∧
    (fetchEndByCause w f cause s).link.state = s.link.state ∧ (fetchEndByCause w f cause s).link.epoch = s.link.epoch ∧
    (fetchEndByCause w f cause s).link.requests = s.link.requests ∧
    (fetchEndByCause w f cause s).link.engine = s.link.engine ∧
    (fetchEndByCause w f cause s).events.readyCause = s.events.readyCause ∧
    (∀ i, ((fetchEndByCause w f cause s).region i).params = (s.region i).params) ∧
    (∀ i, ((fetchEndByCause w f cause s).region i).eventMask = (s.region i).eventMask) ∧
    (∀ i, ((fetchEndByCause w f cause s).region i).committed = (s.region i).committed) ∧
    (∀ i, ((fetchEndByCause w f cause s).region i).boundPort = (s.region i).boundPort) ∧
    (∀ i, ((fetchEndByCause w f cause s).region i).suspect = (s.region i).suspect) ∧
    (∀ i, ((fetchEndByCause w f cause s).region i).faultPage = (s.region i).faultPage) ∧
    (∀ i, ((fetchEndByCause w f cause s).port i).binding = (s.port i).binding) ∧
    (∀ i, ((fetchEndByCause w f cause s).port i).markerEnable = (s.port i).markerEnable) ∧
    (∀ i, ((fetchEndByCause w f cause s).port i).overrunEnable = (s.port i).overrunEnable) ∧
    (∀ i, ((fetchEndByCause w f cause s).port i).halted = (s.port i).halted) ∧
    (∀ i, ((fetchEndByCause w f cause s).port i).assembly = (s.port i).assembly) ∧
    (∀ i, ((fetchEndByCause w f cause s).port i).counts = (s.port i).counts) ∧
    (∀ i, ((fetchEndByCause w f cause s).window i).region = (s.window i).region) ∧
    (∀ i, ((fetchEndByCause w f cause s).window i).first = (s.window i).first) ∧
    (∀ i, ((fetchEndByCause w f cause s).window i).last = (s.window i).last) ∧
    (∀ i, (fetchEndByCause w f cause s).reservation i = s.reservation i) ∧
    (∀ i, (fetchEndByCause w f cause s).owned i = s.owned i) ∧ (fetchEndByCause w f cause s).store.memory = s.store.memory ∧
    (fetchEndByCause w f cause s).store.errors = s.store.errors ∧
    (fetchEndByCause w f cause s).store.condition = s.store.condition := by
  unfold fetchEndByCause
  repeat' split
  all_goals simp

@[simp] theorem fetchRead_frame (w : WindowId) (f : Fetch) (page : Nat) :
    (fetchRead w f page s).pending = s.pending ∧ (fetchRead w f page s).freeCount = s.freeCount ∧
    (fetchRead w f page s).device = s.device ∧ (fetchRead w f page s).restart = s.restart ∧
    (fetchRead w f page s).link = s.link ∧ (fetchRead w f page s).events = s.events ∧
    (fetchRead w f page s).alloc = s.alloc ∧ (fetchRead w f page s).cache = s.cache ∧
    (fetchRead w f page s).regions = s.regions ∧ (fetchRead w f page s).ports = s.ports ∧
    (∀ i, (fetchRead w f page s).region i = s.region i) ∧ (∀ i, (fetchRead w f page s).port i = s.port i) ∧
    (∀ i, ((fetchRead w f page s).window i).region = (s.window i).region) ∧
    (∀ i, ((fetchRead w f page s).window i).first = (s.window i).first) ∧
    (∀ i, ((fetchRead w f page s).window i).last = (s.window i).last) ∧
    (∀ i, (fetchRead w f page s).reservation i = s.reservation i) ∧ (∀ i, (fetchRead w f page s).owned i = s.owned i) ∧
    (fetchRead w f page s).store.memory = s.store.memory ∧
    (fetchRead w f page s).store.errors = s.store.errors ∧ (fetchRead w f page s).store.condition = s.store.condition := by
  unfold fetchRead
  dsimp only
  simp
  all_goals repeat' apply And.intro
  all_goals intro i
  all_goals split <;> simp_all

@[simp] theorem fetchNext_frame (w : WindowId) (f : Fetch) :
    (fetchNext w f s).pending = s.pending ∧ (fetchNext w f s).freeCount = s.freeCount ∧
    (fetchNext w f s).device = s.device ∧ (fetchNext w f s).restart = s.restart ∧ (fetchNext w f s).link = s.link ∧
    (fetchNext w f s).events = s.events ∧ (fetchNext w f s).alloc = s.alloc ∧ (fetchNext w f s).regions = s.regions ∧
    (fetchNext w f s).ports = s.ports ∧ (∀ i, (fetchNext w f s).region i = s.region i) ∧
    (∀ i, (fetchNext w f s).port i = s.port i) ∧ (∀ i, ((fetchNext w f s).window i).region = (s.window i).region) ∧
    (∀ i, ((fetchNext w f s).window i).first = (s.window i).first) ∧
    (∀ i, ((fetchNext w f s).window i).last = (s.window i).last) ∧
    (∀ i, (fetchNext w f s).reservation i = s.reservation i) ∧ (∀ i, (fetchNext w f s).owned i = s.owned i) ∧
    (fetchNext w f s).store.memory = s.store.memory ∧
    (fetchNext w f s).store.errors = s.store.errors ∧ (fetchNext w f s).store.condition = s.store.condition := by
  unfold fetchNext
  dsimp only
  repeat' split
  all_goals simp
  all_goals repeat' apply And.intro
  all_goals intro i
  all_goals split <;> simp_all

@[simp] theorem fetchAnswer_frame (w : WindowId) (page : Option Nat) :
    (fetchAnswer w page s).pending = s.pending ∧ (fetchAnswer w page s).freeCount = s.freeCount ∧
    (fetchAnswer w page s).device = s.device ∧ (fetchAnswer w page s).restart = s.restart ∧
    (fetchAnswer w page s).alloc = s.alloc ∧ (fetchAnswer w page s).cache = s.cache ∧
    (fetchAnswer w page s).link.lineRate = s.link.lineRate ∧ (fetchAnswer w page s).link.kept = s.link.kept ∧
    (fetchAnswer w page s).link.state = s.link.state ∧ (fetchAnswer w page s).link.epoch = s.link.epoch ∧
    (fetchAnswer w page s).link.requests = s.link.requests ∧ (fetchAnswer w page s).link.engine = s.link.engine ∧
    (fetchAnswer w page s).events.readyCause = s.events.readyCause ∧
    (∀ i, ((fetchAnswer w page s).region i).params = (s.region i).params) ∧
    (∀ i, ((fetchAnswer w page s).region i).eventMask = (s.region i).eventMask) ∧
    (∀ i, ((fetchAnswer w page s).region i).committed = (s.region i).committed) ∧
    (∀ i, ((fetchAnswer w page s).region i).boundPort = (s.region i).boundPort) ∧
    (∀ i, ((fetchAnswer w page s).region i).suspect = (s.region i).suspect) ∧
    (∀ i, ((fetchAnswer w page s).region i).faultPage = (s.region i).faultPage) ∧
    (∀ i, ((fetchAnswer w page s).port i).binding = (s.port i).binding) ∧
    (∀ i, ((fetchAnswer w page s).port i).markerEnable = (s.port i).markerEnable) ∧
    (∀ i, ((fetchAnswer w page s).port i).overrunEnable = (s.port i).overrunEnable) ∧
    (∀ i, ((fetchAnswer w page s).port i).halted = (s.port i).halted) ∧
    (∀ i, ((fetchAnswer w page s).port i).assembly = (s.port i).assembly) ∧
    (∀ i, ((fetchAnswer w page s).port i).counts = (s.port i).counts) ∧
    (∀ i, ((fetchAnswer w page s).window i).region = (s.window i).region) ∧
    (∀ i, ((fetchAnswer w page s).window i).first = (s.window i).first) ∧
    (∀ i, ((fetchAnswer w page s).window i).last = (s.window i).last) ∧
    (∀ i, (fetchAnswer w page s).reservation i = s.reservation i) ∧ (∀ i, (fetchAnswer w page s).owned i = s.owned i) ∧
    (fetchAnswer w page s).store.memory = s.store.memory ∧
    (fetchAnswer w page s).store.errors = s.store.errors ∧ (fetchAnswer w page s).store.condition = s.store.condition := by
  unfold fetchAnswer
  repeat' split
  all_goals simp

@[simp] theorem fetchRecord_frame (w : WindowId) (f : Fetch) (bytes : List Byte) :
    (fetchRecord w f bytes s).pending = s.pending ∧ (fetchRecord w f bytes s).freeCount = s.freeCount ∧
    (fetchRecord w f bytes s).device = s.device ∧ (fetchRecord w f bytes s).restart = s.restart ∧
    (fetchRecord w f bytes s).alloc = s.alloc ∧ (fetchRecord w f bytes s).link.lineRate = s.link.lineRate ∧
    (fetchRecord w f bytes s).link.kept = s.link.kept ∧ (fetchRecord w f bytes s).link.state = s.link.state ∧
    (fetchRecord w f bytes s).link.epoch = s.link.epoch ∧ (fetchRecord w f bytes s).link.requests = s.link.requests ∧
    (fetchRecord w f bytes s).link.engine = s.link.engine ∧
    (fetchRecord w f bytes s).events.readyCause = s.events.readyCause ∧
    (∀ i, ((fetchRecord w f bytes s).region i).params = (s.region i).params) ∧
    (∀ i, ((fetchRecord w f bytes s).region i).eventMask = (s.region i).eventMask) ∧
    (∀ i, ((fetchRecord w f bytes s).region i).committed = (s.region i).committed) ∧
    (∀ i, ((fetchRecord w f bytes s).region i).boundPort = (s.region i).boundPort) ∧
    (∀ i, ((fetchRecord w f bytes s).region i).suspect = (s.region i).suspect) ∧
    (∀ i, ((fetchRecord w f bytes s).region i).faultPage = (s.region i).faultPage) ∧
    (∀ i, ((fetchRecord w f bytes s).port i).binding = (s.port i).binding) ∧
    (∀ i, ((fetchRecord w f bytes s).port i).markerEnable = (s.port i).markerEnable) ∧
    (∀ i, ((fetchRecord w f bytes s).port i).overrunEnable = (s.port i).overrunEnable) ∧
    (∀ i, ((fetchRecord w f bytes s).port i).halted = (s.port i).halted) ∧
    (∀ i, ((fetchRecord w f bytes s).port i).assembly = (s.port i).assembly) ∧
    (∀ i, ((fetchRecord w f bytes s).port i).counts = (s.port i).counts) ∧
    (∀ i, ((fetchRecord w f bytes s).window i).region = (s.window i).region) ∧
    (∀ i, ((fetchRecord w f bytes s).window i).first = (s.window i).first) ∧
    (∀ i, ((fetchRecord w f bytes s).window i).last = (s.window i).last) ∧
    (∀ i, (fetchRecord w f bytes s).reservation i = s.reservation i) ∧
    (∀ i, (fetchRecord w f bytes s).owned i = s.owned i) ∧ (fetchRecord w f bytes s).store.memory = s.store.memory ∧
    (fetchRecord w f bytes s).store.errors = s.store.errors ∧
    (fetchRecord w f bytes s).store.condition = s.store.condition := by
  unfold fetchRecord
  dsimp only
  repeat' split
  all_goals simp

@[simp] theorem restartWindow_frame (w : WindowId) :
    (restartWindow s w).pending = s.pending ∧ (restartWindow s w).freeCount = s.freeCount ∧
    (restartWindow s w).device = s.device ∧ (restartWindow s w).restart = s.restart ∧ (restartWindow s w).alloc = s.alloc ∧
    (restartWindow s w).cache = s.cache ∧ (restartWindow s w).link.lineRate = s.link.lineRate ∧
    (restartWindow s w).link.kept = s.link.kept ∧ (restartWindow s w).link.state = s.link.state ∧
    (restartWindow s w).link.epoch = s.link.epoch ∧ (restartWindow s w).link.requests = s.link.requests ∧
    (restartWindow s w).link.engine = s.link.engine ∧ (restartWindow s w).events.readyCause = s.events.readyCause ∧
    (∀ i, ((restartWindow s w).region i).params = (s.region i).params) ∧
    (∀ i, ((restartWindow s w).region i).eventMask = (s.region i).eventMask) ∧
    (∀ i, ((restartWindow s w).region i).committed = (s.region i).committed) ∧
    (∀ i, ((restartWindow s w).region i).boundPort = (s.region i).boundPort) ∧
    (∀ i, ((restartWindow s w).region i).suspect = (s.region i).suspect) ∧
    (∀ i, ((restartWindow s w).region i).faultPage = (s.region i).faultPage) ∧
    (∀ i, ((restartWindow s w).port i).binding = (s.port i).binding) ∧
    (∀ i, ((restartWindow s w).port i).markerEnable = (s.port i).markerEnable) ∧
    (∀ i, ((restartWindow s w).port i).overrunEnable = (s.port i).overrunEnable) ∧
    (∀ i, ((restartWindow s w).port i).halted = (s.port i).halted) ∧
    (∀ i, ((restartWindow s w).port i).assembly = (s.port i).assembly) ∧
    (∀ i, ((restartWindow s w).port i).counts = (s.port i).counts) ∧
    (∀ i, ((restartWindow s w).window i).region = (s.window i).region) ∧
    (∀ i, ((restartWindow s w).window i).first = (s.window i).first) ∧
    (∀ i, ((restartWindow s w).window i).last = (s.window i).last) ∧
    (∀ i, (restartWindow s w).reservation i = s.reservation i) ∧ (∀ i, (restartWindow s w).owned i = s.owned i) ∧
    (restartWindow s w).store.memory = s.store.memory ∧
    (restartWindow s w).store.errors = s.store.errors ∧ (restartWindow s w).store.condition = s.store.condition := by
  unfold restartWindow
  dsimp only
  repeat' split
  all_goals simp
  all_goals repeat' apply And.intro
  all_goals intro i
  all_goals split <;> simp_all

end Sys2Proof.Machine
end

