-- ==== Sys2Proof/Laws/Memory.lean ====
section
/-! SUPPORT. The DRAM's memory, the words in which an error stands and the ownership table: every write keeps the canonical form,
a read after a write gives the byte written and every other byte as before, and the same of words and of the table's entries. -/

namespace Sys2Proof.Machine

/-! ### Memory -/

theorem Memory.mem_cells {a : Nat} {bytes : List Byte} {c : Host.Cell} (h : c ∈ Memory.cells a bytes) :
    a ≤ c.1 ∧ c.1 < a + bytes.length ∧ c.2 ≠ Memory.unwritten := by
  induction bytes generalizing a with
  | nil => simp [Memory.cells] at h
  | cons b bs ih =>
    unfold Memory.cells at h
    have step : c ∈ Memory.cells (a + 1) bs → a ≤ c.1 ∧ c.1 < a + (b :: bs).length ∧ c.2 ≠ Memory.unwritten := by
      intro h'
      obtain ⟨h1, h2, h3⟩ := ih h'
      exact ⟨by omega, by simp; omega, h3⟩
    split at h
    · exact step h
    · next hb =>
      rcases List.mem_cons.mp h with rfl | h'
      · exact ⟨Nat.le_refl _, by simp, hb⟩
      · exact step h'

theorem Memory.cells_sorted (a : Nat) (bytes : List Byte) :
    (Memory.cells a bytes).Pairwise (fun x y => x.1 < y.1) := by
  induction bytes generalizing a with
  | nil => exact List.Pairwise.nil
  | cons b bs ih =>
    unfold Memory.cells
    split
    · exact ih _
    · refine List.Pairwise.cons ?_ (ih _)
      intro c hc
      have := (Memory.mem_cells hc).1
      show a < c.1
      omega

/-- A write keeps the canonical form. -/
theorem Memory.write_wf {m : List Host.Cell} (h : Memory.wf m) (a : Nat) (bytes : List Byte) :
    Memory.wf (Memory.write m a bytes) := by
  obtain ⟨hs, hv⟩ := h
  unfold Memory.write
  constructor
  · rw [List.pairwise_append, List.pairwise_append]
    refine ⟨⟨hs.filter _, Memory.cells_sorted a bytes, ?_⟩, hs.filter _, ?_⟩
    · intro x hx y hy
      have h1 := List.of_mem_filter hx
      have h2 := (Memory.mem_cells hy).1
      simp at h1
      omega
    · intro x hx y hy
      have h2 := List.of_mem_filter hy
      simp at h2
      rcases List.mem_append.mp hx with hx | hx
      · have h1 := List.of_mem_filter hx
        simp at h1
        omega
      · have := (Memory.mem_cells hx).2.1
        omega
  · intro c hc
    rcases List.mem_append.mp hc with hc | hc
    · rcases List.mem_append.mp hc with hc | hc
      · exact hv c (List.mem_of_mem_filter hc)
      · exact (Memory.mem_cells hc).2.2
    · exact hv c (List.mem_of_mem_filter hc)

/-- A hard reset's empty memory is canonical. -/
theorem Memory.nil_wf : Memory.wf [] := ⟨List.Pairwise.nil, by simp⟩

/-- The entry of an address, if the memory lists it. -/
theorem Memory.read_def (m : List Host.Cell) (a : Nat) :
    Memory.read m a = ((m.find? (fun c => c.1 == a)).map (·.2)).getD Memory.unwritten := by
  unfold Memory.read
  cases m.find? (fun c => c.1 == a) <;> rfl

theorem Memory.find_none_of_forall {m : List Host.Cell} {a : Nat} (h : ∀ c ∈ m, c.1 ≠ a) :
    m.find? (fun c => c.1 == a) = none := by
  rw [List.find?_eq_none]
  intro c hc
  simpa using h c hc

theorem Memory.find_filter {m : List Host.Cell} {a : Nat} {p : Host.Cell → Bool} (h : ∀ c : Host.Cell, c.1 = a → p c = true) :
    (m.filter p).find? (fun c => c.1 == a) = m.find? (fun c => c.1 == a) := by
  induction m with
  | nil => rfl
  | cons x xs ih =>
    by_cases hx : x.1 = a
    · have := h x hx
      simp [this, hx]
    · by_cases hp : p x = true
      · simp [hp, hx, ih]
      · simp [hp, hx, ih]

theorem Memory.find_cells (a : Nat) (bytes : List Byte) (i : Nat) (hi : i < bytes.length) :
    ((Memory.cells a bytes).find? (fun c => c.1 == a + i)).map (·.2) =
      if bytes[i] = Memory.unwritten then none else some bytes[i] := by
  induction bytes generalizing a i with
  | nil => simp at hi
  | cons b bs ih =>
    unfold Memory.cells
    cases i with
    | zero =>
      by_cases hb : b = Memory.unwritten
      · rw [if_pos hb, Memory.find_none_of_forall]
        · simp [hb]
        · intro c hc
          have := (Memory.mem_cells hc).1
          omega
      · simp [hb]
    | succ j =>
      have hj : j < bs.length := by simpa using hi
      have key := ih (a + 1) j hj
      have e : a + 1 + j = a + (j + 1) := by omega
      rw [e] at key
      by_cases hb : b = Memory.unwritten
      · rw [if_pos hb]; simpa using key
      · rw [if_neg hb, List.find?_cons_of_neg (by simp)]
        simpa using key

/-- A byte outside the bytes stored reads as before. -/
theorem Memory.read_write_outside (m : List Host.Cell) (a : Nat) (bytes : List Byte) (x : Nat)
    (h : x < a ∨ a + bytes.length ≤ x) : Memory.read (Memory.write m a bytes) x = Memory.read m x := by
  have hc : (Memory.cells a bytes).find? (fun c => c.1 == x) = none :=
    Memory.find_none_of_forall (fun c hc => by have := Memory.mem_cells hc; omega)
  rw [Memory.read_def, Memory.read_def, Memory.write, List.find?_append, List.find?_append, hc]
  rcases h with h | h
  · have h2 : (m.filter (fun c => a + bytes.length ≤ c.1)).find? (fun c => c.1 == x) = none :=
      Memory.find_none_of_forall (fun c hc => by have := List.of_mem_filter hc; simp at this; omega)
    rw [h2, Memory.find_filter (fun c hcx => by simp; omega)]
    simp
  · have h1 : (m.filter (fun c => c.1 < a)).find? (fun c => c.1 == x) = none :=
      Memory.find_none_of_forall (fun c hc => by have := List.of_mem_filter hc; simp at this; omega)
    rw [h1, Memory.find_filter (fun c hcx => by simp; omega)]
    simp

/-- A byte stored reads back. -/
theorem Memory.read_write_inside (m : List Host.Cell) (a : Nat) (bytes : List Byte) (i : Nat) (hi : i < bytes.length) :
    Memory.read (Memory.write m a bytes) (a + i) = bytes[i] := by
  have h1 : (m.filter (fun c => c.1 < a)).find? (fun c => c.1 == a + i) = none :=
    Memory.find_none_of_forall (fun c hc => by have := List.of_mem_filter hc; simp at this; omega)
  have h2 : (m.filter (fun c => a + bytes.length ≤ c.1)).find? (fun c => c.1 == a + i) = none :=
    Memory.find_none_of_forall (fun c hc => by have := List.of_mem_filter hc; simp at this; omega)
  rw [Memory.read_def, Memory.write, List.find?_append, List.find?_append, h1, h2]
  have := Memory.find_cells a bytes i hi
  simp only [Option.none_or, Option.or_none]
  rw [this]
  split <;> simp_all

/-- Reading back every byte stored. -/
theorem Memory.readBytes_write (m : List Host.Cell) (a : Nat) (bytes : List Byte) :
    Memory.readBytes (Memory.write m a bytes) a bytes.length = bytes := by
  apply List.ext_getElem
  · simp [Memory.readBytes]
  · intro i h1 h2
    simp [Memory.readBytes, Memory.read_write_inside m a bytes i h2]

@[simp] theorem Memory.readBytes_length (m : List Host.Cell) (a n : Nat) : (Memory.readBytes m a n).length = n := by
  simp [Memory.readBytes]

@[simp] theorem beBytes_length (n x : Nat) : (beBytes n x).length = n := by
  induction n with
  | zero => rfl
  | succ n ih => simp [beBytes, ih]

@[simp] theorem wordBytes_length (w : Word) : (wordBytes w).length = 8 := beBytes_length 8 w.toNat

@[simp] theorem wordWithSlot_length (w : Word) (s v : Nat) : (wordWithSlot w s v).length = 8 := by
  have : s % 4 * 2 ≤ 6 := by omega
  simp [wordWithSlot]
  omega

@[simp] theorem patternPage_length (page : Nat) : (patternPage page).length = Config.pageBytes := by
  have h : ∀ l : List Nat, (l.flatMap (fun i => wordBytes (Config.sweepPattern page i))).length = l.length * 8 := by
    intro l
    induction l with
    | nil => rfl
    | cons x xs ih => rw [List.flatMap_cons, List.length_append, ih, wordBytes_length, List.length_cons]; omega
  rw [patternPage, h, List.length_range]
  rfl

/-! ### Big-endian fields -/

theorem beValue_append (xs : List Byte) (b : Byte) : beValue (xs ++ [b]) = beValue xs * 256 + b.toNat := by
  simp [beValue]

theorem beValue_cons (b : Byte) (xs : List Byte) : beValue (b :: xs) = b.toNat * 256 ^ xs.length + beValue xs := by
  induction xs using List.reverseRecOn with
  | nil => simp [beValue]
  | append_singleton xs x ih =>
    rw [← List.cons_append, beValue_append, ih, beValue_append]
    simp [pow_succ]
    ring

/-- The bytes of a number give back the number, less the bits that do not fit. -/
theorem beValue_beBytes (n x : Nat) : beValue (beBytes n x) = x % 256 ^ n := by
  induction n with
  | zero => simp [beBytes, beValue, Nat.mod_one]
  | succ n ih =>
    rw [beBytes, beValue_cons, ih, beBytes_length]
    have h : (BitVec.ofNat 8 (x / 256 ^ n)).toNat = x / 256 ^ n % 256 := by simp
    rw [h, pow_succ, Nat.mod_mul]
    ring

theorem beValue_lt (l : List Byte) : beValue l < 256 ^ l.length := by
  induction l with
  | nil => simp [beValue]
  | cons b l ih =>
    rw [beValue_cons]
    have := b.isLt
    simp only [List.length_cons, pow_succ]
    have := Nat.pow_pos (n := l.length) (show 0 < 256 by omega)
    nlinarith

theorem beBytes_beValue (l : List Byte) : beBytes l.length (beValue l) = l := by
  induction l with
  | nil => rfl
  | cons b l ih =>
    have hl := beValue_lt l
    simp only [List.length_cons, beBytes, beValue_cons]
    congr 1
    · rw [Nat.mul_comm, Nat.mul_add_div (by positivity), Nat.div_eq_of_lt hl]
      simp
    · have : ∀ n x y, beBytes n (y * 256 ^ n + x) = beBytes n x := by
        intro n
        induction n with
        | zero => intros; rfl
        | succ n ihn =>
          intro x y
          simp only [beBytes]
          congr 1
          · apply BitVec.eq_of_toNat_eq
            simp only [BitVec.toNat_ofNat]
            rw [show y * 256^(n+1) + x = x + 256^n * (256 * y) by ring]
            rw [Nat.add_mul_div_left _ _ (by positivity)]
            omega
          · rw [show y * 256^(n+1) + x = (256*y) * 256^n + x by ring]
            exact ihn _ _
      rw [this, ih]

/-- The bytes of the word at an address are the bytes there. -/
theorem wordBytes_readWord (m : List Host.Cell) (a : Nat) : wordBytes (Memory.readWord m a) = Memory.readBytes m a 8 := by
  have hl : (Memory.readBytes m a 8).length = 8 := Memory.readBytes_length m a 8
  have hv := beValue_lt (Memory.readBytes m a 8)
  rw [hl] at hv
  have : (Memory.readWord m a).toNat = beValue (Memory.readBytes m a 8) := by
    simp only [Memory.readWord, BitVec.toNat_ofNat]
    exact Nat.mod_eq_of_lt (by simpa using hv)
  rw [wordBytes, this]
  conv_lhs => rw [← hl]
  exact beBytes_beValue _

theorem Memory.readBytes_get (m : List Host.Cell) (a n i : Nat) (h : i < n) : (Memory.readBytes m a n)[i]? = some (Memory.read m (a+i)) := by
  simp [Memory.readBytes, h]

/-- The value of a slot is its two bytes, high byte first (R3). -/
theorem slotOfWord_readWord (m : List Host.Cell) (g : RegionId) (s : Nat) :
    slotOfWord (Memory.readWord m (slotWordAddress g s)) s =
      (Memory.read m (g.val * 4096 + 2 * s)).toNat * 256 + (Memory.read m (g.val * 4096 + 2 * s + 1)).toNat := by
  have e0 : slotWordAddress g s + s % 4 * 2 = g.val * 4096 + 2 * s := by simp only [slotWordAddress, Config.pageBytes]; omega
  have hlt : s % 4 < 4 := Nat.mod_lt _ (by omega)
  rw [slotOfWord, wordBytes_readWord]
  have : ((Memory.readBytes m (slotWordAddress g s) 8).drop (s % 4 * 2)).take 2 =
      [Memory.read m (g.val * 4096 + 2 * s), Memory.read m (g.val * 4096 + 2 * s + 1)] := by
    apply List.ext_getElem?
    intro i
    rcases i with _ | _ | i
    · simp only [List.getElem?_take, List.getElem?_drop]
      rw [if_pos (by omega), Memory.readBytes_get _ _ _ _ (by omega), Nat.add_zero, e0]; rfl
    · simp only [List.getElem?_take, List.getElem?_drop]
      rw [if_pos (by omega), Memory.readBytes_get _ _ _ _ (by omega), ← Nat.add_assoc, e0]; rfl
    · simp only [List.getElem?_take, List.getElem?_drop]
      rw [if_neg (by omega)]; rfl
  rw [this]; simp [beValue]

/-- A word rewritten with one slot replaced (R8): the slot's two bytes are the page number, high byte first, and every other
byte of the memory reads as before. -/
theorem read_write_slot (m : List Host.Cell) (g : RegionId) (s v : Nat) (x : Nat) :
    Memory.read (Memory.write m (slotWordAddress g s) (wordWithSlot (Memory.readWord m (slotWordAddress g s)) s v)) x =
      if x = g.val * 4096 + 2 * s then BitVec.ofNat 8 (v / 256)
      else if x = g.val * 4096 + 2 * s + 1 then BitVec.ofNat 8 v
      else Memory.read m x := by
  have e0 : slotWordAddress g s + s % 4 * 2 = g.val * 4096 + 2 * s := by simp only [slotWordAddress, Config.pageBytes]; omega
  have hlt : s % 4 < 4 := Nat.mod_lt _ (by omega)
  generalize ha : slotWordAddress g s = a at *
  by_cases hin : a ≤ x ∧ x < a + 8
  · obtain ⟨i, rfl⟩ : ∃ i, x = a + i := ⟨x - a, by omega⟩
    have hi : i < 8 := by omega
    have hlen : (wordWithSlot (Memory.readWord m a) s v).length = 8 := wordWithSlot_length _ _ _
    rw [Memory.read_write_inside _ _ _ _ (by omega)]
    have : (wordWithSlot (Memory.readWord m a) s v)[i]? = some (if i = s % 4 * 2 then BitVec.ofNat 8 (v / 256)
      else if i = s % 4 * 2 + 1 then BitVec.ofNat 8 v else Memory.read m (a + i)) := by
      rw [wordWithSlot, wordBytes_readWord]
      have hb : beBytes 2 v = [BitVec.ofNat 8 (v/256), BitVec.ofNat 8 v] := by simp [beBytes]
      rw [hb, List.append_assoc]
      by_cases h1 : i < s % 4 * 2
      · rw [List.getElem?_append_left (by simp; omega), List.getElem?_take, if_pos h1, Memory.readBytes_get _ _ _ _ hi,
          if_neg (by omega), if_neg (by omega)]
      · rw [List.getElem?_append_right (by simp; omega)]
        have hl2 : ((Memory.readBytes m a 8).take (s % 4 * 2)).length = s % 4 * 2 := by simp; omega
        rw [hl2]
        by_cases h2 : i = s % 4 * 2
        · simp [h2]
        · by_cases h3 : i = s % 4 * 2 + 1
          · simp [h3]
          · rw [List.getElem?_append_right (by simp; omega), List.getElem?_drop, if_neg h2, if_neg h3]
            have : s % 4 * 2 + 2 + (i - s % 4 * 2 - [BitVec.ofNat 8 (v/256), BitVec.ofNat 8 v].length) = i := by simp; omega
            rw [this, Memory.readBytes_get _ _ _ _ hi]
    rw [List.getElem?_eq_getElem (by omega)] at this
    rw [Option.some.inj this]
    have : (i = s % 4 * 2 ↔ a + i = g.val * 4096 + 2 * s) := by omega
    have h' : (i = s % 4 * 2 + 1 ↔ a + i = g.val * 4096 + 2 * s + 1) := by omega
    simp only [this, h']
  · rw [Memory.read_write_outside _ _ _ _ (by rw [wordWithSlot_length]; omega), if_neg (by omega), if_neg (by omega)]

/-! ### The words in which an error stands -/

/-- Setting conditions: each word of the range takes its own, every other word keeps the one it had. -/
theorem wordError_setWordErrors (e : List (Nat × WordOutcome)) (first count : Nat) (f : Nat → WordOutcome) (n : Nat) :
    wordError (setWordErrors e first count f) n =
      if first ≤ n ∧ n < first + count then f (n - first) else wordError e n := by
  have key : ∀ l : List (Nat × WordOutcome), wordError l n = ((l.find? (fun x => x.1 == n)).map (·.2)).getD .clean := by
    intro l
    unfold wordError
    cases l.find? (fun x => x.1 == n) <;> rfl
  have find_filter : ∀ (g : Nat × WordOutcome → Bool), (∀ x : Nat × WordOutcome, x.1 = n → g x = true) →
      (e.filter g).find? (fun x => x.1 == n) = e.find? (fun x => x.1 == n) := by
    intro g hg
    induction e with
    | nil => rfl
    | cons x xs ih =>
      by_cases hx : x.1 = n
      · simp [hg x hx, hx]
      · by_cases hp : g x = true <;> simp [hp, hx, ih]
  have find_none : ∀ (g : Nat × WordOutcome → Bool), (∀ x : Nat × WordOutcome, g x = true → x.1 ≠ n) →
      (e.filter g).find? (fun x => x.1 == n) = none := by
    intro g hg
    rw [List.find?_eq_none]
    intro x hx
    simpa using hg x (List.of_mem_filter hx)
  have find_range : ∀ k, ((((List.range k).filterMap
      (fun i => if f i = .clean then none else some (first + i, f i))).find? (fun x => x.1 == n)).map (·.2)).getD .clean =
      if first ≤ n ∧ n < first + k then f (n - first) else .clean := by
    intro k
    induction k with
    | zero => rw [if_neg (by omega)]; rfl
    | succ k ih =>
      rw [List.range_succ, List.filterMap_append, List.find?_append]
      by_cases hn : n = first + k
      · have none_before : ((List.range k).filterMap
            (fun i => if f i = .clean then none else some (first + i, f i))).find? (fun x => x.1 == n) = none := by
          rw [List.find?_eq_none]
          intro x hx
          obtain ⟨i, hi, hx⟩ := List.mem_filterMap.mp hx
          have := List.mem_range.mp hi
          split at hx
          · cases hx
          · cases hx; simp; omega
        rw [none_before, if_pos (by omega), show n - first = k by omega]
        by_cases hc : f k = .clean <;> simp [hc, hn]
      · have none_here : (List.filterMap (fun i => if f i = .clean then none else some (first + i, f i)) [k]).find?
            (fun x => x.1 == n) = none := by
          by_cases hc : f k = .clean <;> simp [hc]
          omega
        rw [none_here, Option.or_none, ih]
        by_cases h : first ≤ n ∧ n < first + k
        · rw [if_pos h, if_pos (by omega)]
        · rw [if_neg h, if_neg (by omega)]
  rw [key, key, setWordErrors, List.find?_append, List.find?_append]
  by_cases h : first ≤ n ∧ n < first + count
  · rw [find_none (fun x => x.1 < first) (fun x hx => by simp at hx; omega),
      find_none (fun x => first + count ≤ x.1) (fun x hx => by simp at hx; omega), Option.none_or, Option.or_none, find_range,
      if_pos h, if_pos h]
  · have none_range : ((List.range count).filterMap
        (fun i => if f i = .clean then none else some (first + i, f i))).find? (fun x => x.1 == n) = none := by
      rw [List.find?_eq_none]
      intro x hx
      obtain ⟨i, hi, hx⟩ := List.mem_filterMap.mp hx
      have := List.mem_range.mp hi
      split at hx
      · cases hx
      · cases hx; simp; omega
    rw [none_range, Option.or_none, if_neg h]
    by_cases hl : n < first
    · rw [find_filter (fun x => x.1 < first) (fun x hx => by simp; omega),
        find_none (fun x => first + count ≤ x.1) (fun x hx => by simp at hx; omega), Option.or_none]
    · rw [find_none (fun x => x.1 < first) (fun x hx => by simp at hx; omega),
        find_filter (fun x => first + count ≤ x.1) (fun x hx => by simp; omega), Option.none_or]

/-- Setting conditions keeps the canonical form. -/
theorem setWordErrors_wf {e : List (Nat × WordOutcome)} (h : wordErrorsWf e) (first count : Nat) (f : Nat → WordOutcome) :
    wordErrorsWf (setWordErrors e first count f) := by
  obtain ⟨hs, hv⟩ := h
  have mem : ∀ x ∈ (List.range count).filterMap (fun i => if f i = .clean then none else some (first + i, f i)),
      first ≤ x.1 ∧ x.1 < first + count ∧ x.2 ≠ .clean := by
    intro x hx
    obtain ⟨i, hi, hx⟩ := List.mem_filterMap.mp hx
    have := List.mem_range.mp hi
    split at hx
    · cases hx
    · next hc => cases hx; exact ⟨by simp, by simpa using this, hc⟩
  unfold setWordErrors
  constructor
  · rw [List.pairwise_append, List.pairwise_append]
    refine ⟨⟨hs.filter _, ?_, ?_⟩, hs.filter _, ?_⟩
    · rw [List.pairwise_filterMap]
      refine List.pairwise_lt_range.imp ?_
      intro a b hab x hx y hy
      split at hx
      · cases hx
      · split at hy
        · cases hy
        · cases hx; cases hy; simp; omega
    · intro x hx y hy
      have h1 := List.of_mem_filter hx
      have h2 := mem y hy
      simp at h1
      omega
    · intro x hx y hy
      have h2 := List.of_mem_filter hy
      simp at h2
      rcases List.mem_append.mp hx with hx | hx
      · have h1 := List.of_mem_filter hx
        simp at h1
        omega
      · have := mem x hx
        omega
  · intro x hx
    rcases List.mem_append.mp hx with hx | hx
    · rcases List.mem_append.mp hx with hx | hx
      · exact hv x (List.mem_of_mem_filter hx)
      · exact (mem x hx).2.2
    · exact hv x (List.mem_of_mem_filter hx)

/-- A word in which an error stands does not read clean (R2, R144). -/
theorem worseOutcome_eq_clean (a b : WordOutcome) : worseOutcome a b = .clean ↔ a = .clean ∧ b = .clean := by
  cases a <;> cases b <;> decide

theorem worseOutcome_eq_uncorrectable (a b : WordOutcome) :
    worseOutcome a b = .uncorrectable ↔ a = .uncorrectable ∨ b = .uncorrectable := by
  cases a <;> cases b <;> decide

@[simp] theorem worseOutcome_clean (a : WordOutcome) : worseOutcome a .clean = a := by cases a <;> rfl
@[simp] theorem clean_worseOutcome (a : WordOutcome) : worseOutcome .clean a = a := rfl
@[simp] theorem uncorrectable_worseOutcome (a : WordOutcome) : worseOutcome .uncorrectable a = .uncorrectable := rfl
@[simp] theorem worseOutcome_uncorrectable (a : WordOutcome) : worseOutcome a .uncorrectable = .uncorrectable := by
  cases a <;> rfl

/-! ### The ownership table -/

theorem tableEntry_tableSet (t : List (Nat × PageEntry)) (p : Nat) (e : PageEntry) (q : Nat) :
    tableEntry (tableSet t p e) q = if q = p then e else tableEntry t q := by
  have find_filter : ∀ (f : Nat × PageEntry → Bool), (∀ x : Nat × PageEntry, x.1 = q → f x = true) →
      (t.filter f).find? (fun x => x.1 == q) = t.find? (fun x => x.1 == q) := by
    intro f hf
    induction t with
    | nil => rfl
    | cons x xs ih =>
      by_cases hx : x.1 = q
      · simp [hf x hx, hx]
      · by_cases hp : f x = true <;> simp [hp, hx, ih]
  have find_none : ∀ (f : Nat × PageEntry → Bool), (∀ x : Nat × PageEntry, f x = true → x.1 ≠ q) →
      (t.filter f).find? (fun x => x.1 == q) = none := by
    intro f hf
    rw [List.find?_eq_none]
    intro x hx
    simpa using hf x (List.of_mem_filter hx)
  unfold tableEntry tableSet
  rw [List.find?_append, List.find?_append]
  by_cases hq : q = p
  · subst hq
    rw [find_none (fun x => x.1 < q) (fun x h => by simp at h; omega),
      find_none (fun x => q < x.1) (fun x h => by simp at h; omega)]
    by_cases he : e = .free <;> simp [he]
  · have mid : (if e = .free then [] else [(p, e)] : List (Nat × PageEntry)).find? (fun x => x.1 == q) = none := by
      by_cases he : e = .free <;> simp [he, Ne.symm hq]
    rw [mid]
    rcases Nat.lt_or_gt_of_ne hq with h | h
    · rw [find_filter (fun x => x.1 < p) (fun x hx => by simp; omega),
        find_none (fun x => p < x.1) (fun x h => by simp at h; omega)]
      simp [hq]
    · rw [find_none (fun x => x.1 < p) (fun x h => by simp at h; omega),
        find_filter (fun x => p < x.1) (fun x hx => by simp; omega)]
      simp [hq]

end Sys2Proof.Machine
end

