-- ==== Sys2Proof/Laws/Reports.lean ====
section
/-! SUPPORT. What raising and arbitrating do to the reports that are pending or being sent. -/

namespace Sys2Proof.Machine

variable {s : State} {key : EventKey} {payload : Payload}

/-- The arbiter loses no report: it moves the head entry into the frame it starts. -/
theorem arbitrate_reports (h : s.reports key payload) : (arbitrate s).reports key payload := by
  unfold arbitrate
  split
  · exact h
  · next hn =>
    have hnone : s.link.transmitting = none := by
      cases ht : s.link.transmitting <;> simp_all
    have hq : ∃ e ∈ s.events.entries, e.key = key ∧ e.payload = payload := by
      rcases h with h | ⟨c, r, h⟩
      · exact h
      · rw [hnone] at h; cases h
    split
    · exact h
    · next e es he hev =>
      obtain ⟨e', hm, hk, hp⟩ := hq
      rw [hev] at hm
      rcases List.mem_cons.mp hm with rfl | hm
      · right; refine ⟨creditByte s.link.outstanding, e'.repeated, ?_⟩; subst hk; subst hp; rfl
      · left; exact ⟨e', hm, hk, hp⟩
    · left; simpa [startReply] using hq
    · next r rs e es he hev =>
      split
      · left; simpa [startReply] using hq
      · obtain ⟨e', hm, hk, hp⟩ := hq
        rw [hev] at hm
        rcases List.mem_cons.mp hm with rfl | hm
        · right; refine ⟨creditByte s.link.outstanding, e'.repeated, ?_⟩; subst hk; subst hp; rfl
        · left; exact ⟨e', hm, hk, hp⟩

theorem enqueue_mem (l : List EventEntry) (key : EventKey) (payload : Payload) :
    ∃ e ∈ enqueue l key payload, e.key = key ∧ e.payload = payload := by
  unfold enqueue
  split
  · next h =>
    simp at h
    obtain ⟨e, he, hk⟩ := h
    refine ⟨⟨key, payload, true⟩, ?_, rfl, rfl⟩
    simp only [List.mem_map]
    exact ⟨e, he, by simp [hk]⟩
  · exact ⟨⟨key, payload, false⟩, by simp, rfl, rfl⟩

theorem enqueue_other {l : List EventEntry} {k : EventKey} {p : Payload} (hk : k ≠ key)
    (h : ∃ e ∈ l, e.key = key ∧ e.payload = payload) : ∃ e ∈ enqueue l k p, e.key = key ∧ e.payload = payload := by
  obtain ⟨e, he, h1, h2⟩ := h
  unfold enqueue
  split
  · refine ⟨e, ?_, h1, h2⟩
    simp only [List.mem_map]
    refine ⟨e, he, ?_⟩
    rw [if_neg]; rintro rfl; exact hk h1
  · exact ⟨e, by simp [he], h1, h2⟩

/-- A raise that is not masked is reported. -/
theorem raiseEvent_reports (h : masked s key = false) : (raiseEvent key payload s).reports key payload := by
  unfold raiseEvent
  rw [if_neg (by simp [h])]
  apply arbitrate_reports
  left; exact enqueue_mem _ _ _

/-- A raise leaves the reports of other keys. -/
theorem raiseEvent_keeps {k : EventKey} {p : Payload} (hk : k ≠ key) (h : s.reports key payload) :
    (raiseEvent k p s).reports key payload := by
  unfold raiseEvent
  split
  · exact h
  · apply arbitrate_reports
    rcases h with h | ⟨c, r, h⟩
    · left; exact enqueue_other hk h
    · right; exact ⟨c, r, h⟩

theorem evaluateNotice_keeps (hk : EventKey.poolLow ≠ key) (h : s.reports key payload) :
    (evaluateNotice s).reports key payload := by
  unfold evaluateNotice
  repeat' split
  · exact h
  · exact raiseEvent_keeps hk h
  · exact h
  · exact h
  · exact h

/-- Right after an evaluation in RUN the notice is armed only while Available is at the threshold or above (R36). -/
theorem evaluateNotice_settled (h : s.device = .run) (ha : (evaluateNotice s).alloc.armed = true) :
    (evaluateNotice s).alloc.threshold ≤ (evaluateNotice s).alloc.available := by
  revert ha
  unfold evaluateNotice Allocator.available
  rw [if_neg (by simp [h])]
  repeat' split
  all_goals simp_all

@[simp] theorem evaluateNotice_available : (evaluateNotice s).alloc.available = s.alloc.available := by
  simp [Allocator.available]

end Sys2Proof.Machine
end

