-- ==== Sys2Proof/Laws/Requests.lean ====
section
/-! SUPPORT. What the request engine does when it takes a request, and what the fields of a request's body read as. -/

namespace Sys2Proof.Machine

variable {s : State} {kind tag : Byte} {body : List Byte} {rest : List Request}

theorem takeRequest_taken (h : Takes s kind tag body rest) : takeRequest ⟨kind, tag, body⟩ s = some (s.taken rest) := by
  obtain ⟨he, hr⟩ := h
  simp [takeRequest, he, hr, State.taken]

theorem takeRequest_none {q : Request} (h : s.link.engine = .held ∨ s.link.requests.head? ≠ some q) :
    takeRequest q s = none := by
  unfold takeRequest
  split
  · rcases h with h | h <;> simp_all
  · rfl

/-- Everything that the taking of a request can do. -/
theorem takeRequest_some {q : Request} {t : State} (h : takeRequest q s = some t) :
    ∃ rest, s.link.engine = .running ∧ s.link.requests = q :: rest ∧ t = s.taken rest := by
  unfold takeRequest at h
  split at h
  · next he hr =>
    split at h
    · next hq => simp at h; subst h; subst hq; exact ⟨_, he, hr, rfl⟩
    · simp at h
  · simp at h

theorem serve_none {owner : State → State} (h : s.link.engine = .held ∨ s.link.requests.head? ≠ some ⟨kind, tag, body⟩) :
    serve kind tag body owner s = s := by
  unfold serve; rw [takeRequest_none h]

/-- A request whose dispatch tests pass reaches its owner. -/
theorem serve_requested {owner : State → State} (h : Requested s kind tag body rest)
    (hl : requestBodyLength kind = some body.length) : serve kind tag body owner s = owner (s.taken rest) := by
  obtain ⟨ht, hd⟩ := h
  have hd' : ¬((s.taken rest).device = .init ∧ answeredInInit kind = false) := fun h => hd h.1
  simp [serve, takeRequest_taken ht, dispatch, hl, hd']

/-- IDENTIFY and STATUS reach their owner in INIT as well. -/
theorem serve_always {owner : State → State} (h : Takes s kind tag body rest)
    (hl : requestBodyLength kind = some body.length) (hk : answeredInInit kind = true) :
    serve kind tag body owner s = owner (s.taken rest) := by
  have hd' : ¬((s.taken rest).device = .init ∧ answeredInInit kind = false) := fun h => by simp [hk] at h
  simp [serve, takeRequest_taken h, dispatch, hl, hd']

@[simp] theorem State.taken_region (i : RegionId) : (s.taken rest).region i = s.region i := rfl
@[simp] theorem State.taken_port (i : PortId) : (s.taken rest).port i = s.port i := rfl
@[simp] theorem State.taken_window (i : WindowId) : (s.taken rest).window i = s.window i := rfl
@[simp] theorem State.taken_reservation (i : RegionId) : (s.taken rest).reservation i = s.reservation i := rfl
@[simp] theorem State.taken_owned (i : RegionId) : (s.taken rest).owned i = s.owned i := rfl
@[simp] theorem State.taken_device : (s.taken rest).device = s.device := rfl
@[simp] theorem State.taken_restart : (s.taken rest).restart = s.restart := rfl
@[simp] theorem State.taken_alloc : (s.taken rest).alloc = s.alloc := rfl
@[simp] theorem State.taken_store : (s.taken rest).store = s.store := rfl
@[simp] theorem State.taken_cache : (s.taken rest).cache = s.cache := rfl
@[simp] theorem State.taken_events : (s.taken rest).events = s.events := rfl
@[simp] theorem State.taken_regions : (s.taken rest).regions = s.regions := rfl
@[simp] theorem State.taken_ports : (s.taken rest).ports = s.ports := rfl
@[simp] theorem State.taken_windows : (s.taken rest).windows = s.windows := rfl
@[simp] theorem State.taken_epoch : (s.taken rest).link.epoch = s.link.epoch := rfl
@[simp] theorem State.taken_outstanding : (s.taken rest).link.outstanding = s.link.outstanding := rfl

theorem regionArg_val (r : RegionId) : regionArg r.val = some r := by simp [regionArg]
theorem portArg_val (p : PortId) : portArg p.val = some p := by simp [portArg]
theorem windowArg_val (w : WindowId) : windowArg w.val = some w := by simp [windowArg]
theorem regionArg_none {x : Nat} (h : 16 ≤ x) : regionArg x = none := by simp [regionArg]; omega
theorem portArg_none {x : Nat} (h : 4 ≤ x) : portArg x = none := by simp [portArg]; omega
theorem windowArg_none {x : Nat} (h : 4 ≤ x) : windowArg x = none := by simp [windowArg]; omega

/-- A one-byte field is the byte at its offset. -/
theorem field_byte (before after : List Byte) (b : Byte) : field (before ++ b :: after) before.length 1 = b.toNat := by
  simp [field, beValue]

theorem field_head (b : Byte) (after : List Byte) : field (b :: after) 0 1 = b.toNat := field_byte [] after b

/-- A field written as `n` bytes reads as the number, where the number fits. -/
theorem field_beBytes (before after : List Byte) (n x : Nat) (h : x < 256 ^ n) :
    field (before ++ (beBytes n x ++ after)) before.length n = x := by
  simp [field, beValue_beBytes, Nat.mod_eq_of_lt h]

end Sys2Proof.Machine
end

