-- ==== Sys2Proof/Laws/Operations.lean ====
section
/-! SUPPORT. What the shared operations do, one lemma each: the round-robin choice, the cache's search, reservations and claims,
stop notices, and what follows from a command being a request. -/

namespace Sys2Proof.Machine

/-! ### The round-robin choice (R13) -/

theorem roundRobin_of_table : ∀ (ptr w : Fin 4) (a0 a1 a2 a3 : Bool),
   (match w with | 0 => a0 | 1 => a1 | 2 => a2 | 3 => a3) = true →
   (∀ q : Fin 4, (match q with | 0 => a0 | 1 => a1 | 2 => a2 | 3 => a3) = true → w - (ptr+1) ≤ q - (ptr+1)) →
   roundRobin ptr (fun q => match q with | 0 => a0 | 1 => a1 | 2 => a2 | 3 => a3) = some w := by decide +kernel

/-- The first that waits, counted from the one after the pointer, is chosen. -/
theorem roundRobin_first (ptr w : Fin 4) (f : Fin 4 → Bool) (hw : f w = true)
    (h : ∀ q, f q = true → w - (ptr+1) ≤ q - (ptr+1)) : roundRobin ptr f = some w := by
  have e : f = (fun q : Fin 4 => match q with | 0 => f 0 | 1 => f 1 | 2 => f 2 | 3 => f 3) := by
    funext q; fin_cases q <;> rfl
  have := roundRobin_of_table ptr w (f 0) (f 1) (f 2) (f 3)
  rw [e]
  apply this
  · rw [e] at hw; exact hw
  · intro q hq; apply h; rw [e]; exact hq

theorem Store.readWaits_false {st : Store} (h : ∀ w, st.reads.get w = none) : st.readWaits = false := by
  simp [Store.readWaits, h]

theorem Store.readWaits_true {st : Store} (h : ¬ ∀ w, st.reads.get w = none) : st.readWaits = true := by
  simp only [not_forall] at h
  obtain ⟨w, hw⟩ := h
  simp only [Store.readWaits, List.any_eq_true]
  exact ⟨w, by simp, by simpa [Option.isSome_iff_ne_none] using hw⟩

theorem Store.writeWaits_false {st : Store} (h : ∀ w, st.writes.get w = none) : st.writeWaits = false := by
  simp [Store.writeWaits, h]

theorem Store.writeWaits_true {st : Store} {p op} (h : st.writes.get p = some op) : st.writeWaits = true := by
  simp only [Store.writeWaits, List.any_eq_true]
  exact ⟨p, by simp, by simp [h]⟩

/-! ### Reads and writes of the stored words (R2) -/

/-- Reading words keeps the error of those that read corrected and raises the correctable-error count by them, and nothing else. -/
theorem readWords_spec (first count : Nat) (cells : Nat → WordOutcome) (s : State) :
    ∃ errors, wordErrorsSet errors s.store.errors first count (fun i =>
        if s.store.wordOutcome first cells i = .corrected then .corrected else wordError s.store.errors (first + i)) ∧
      readWords first count cells s = { s with store := { s.store with
        errors := errors
        correctable := min 65535 (s.store.correctable +
          (List.range count).countP (fun i => decide (s.store.wordOutcome first cells i = .corrected))) } } :=
  ⟨_, fun n => wordError_setWordErrors _ _ _ _ n, rfl⟩

/-- A word left unreadable: its error, and nothing else of the state. -/
theorem leaveUnreadable_spec (n : Nat) (s : State) :
    ∃ errors, wordErrorsSet errors s.store.errors n 1 (fun _ => .uncorrectable) ∧
      leaveUnreadable n s = { s with store := { s.store with errors := errors } } :=
  ⟨_, fun x => wordError_setWordErrors _ _ _ _ x, rfl⟩

/-- Storing bytes changes them and gives their words fresh check bits, and nothing else. -/
theorem storeBytes_spec (a : Nat) (bytes : List Byte) (s : State) :
    ∃ memory errors, Memory.holds memory a bytes ∧ Memory.sameOutside memory s.store.memory a bytes.length ∧
      wordErrorsSet errors s.store.errors (a / 8) (bytes.length / 8) (fun _ => .clean) ∧
      storeBytes a bytes s = { s with store := { s.store with memory := memory, errors := errors } } := by
  refine ⟨_, _, ?_, fun x hx => Memory.read_write_outside _ _ _ _ hx, fun n => wordError_setWordErrors _ _ _ _ n, rfl⟩
  intro i b hb
  obtain ⟨hi, rfl⟩ := List.getElem?_eq_some_iff.1 hb
  exact Memory.read_write_inside _ _ _ _ hi

/-- Words just written read as their cells are. -/
theorem wordErrorsSet.fresh {e before : List (Nat × WordOutcome)} {first count i : Nat}
    (h : wordErrorsSet e before first count (fun _ => .clean)) (hi : i < count) : wordError e (first + i) = .clean := by
  rw [h, if_pos (by omega)]

/-- Reading words in which no error stands: each reads as its cells are found. -/
theorem readWords_fresh {first count : Nat} {s : State} (h : ∀ i, i < count → wordError s.store.errors (first + i) = .clean)
    (cells : Nat → WordOutcome) :
    ∃ errors, wordErrorsSet errors s.store.errors first count (fun i => if cells i = .corrected then .corrected else .clean) ∧
      readWords first count cells s = { s with store := { s.store with
        errors := errors
        correctable := min 65535 (s.store.correctable +
          (List.range count).countP (fun i => decide (cells i = .corrected))) } } := by
  obtain ⟨errors, h1, h2⟩ := readWords_spec first count cells s
  have same : ∀ i, i < count → s.store.wordOutcome first cells i = cells i := by
    intro i hi
    rw [Store.wordOutcome, h i hi, clean_worseOutcome]
  refine ⟨errors, ?_, ?_⟩
  · intro n
    rw [h1 n]
    by_cases hn : first ≤ n ∧ n < first + count
    · rw [if_pos hn, if_pos hn]; simp only [same (n - first) (by omega), h (n - first) (by omega)]
    · rw [if_neg hn, if_neg hn]
  · have e : (List.range count).countP (fun i => decide (s.store.wordOutcome first cells i = .corrected)) =
        (List.range count).countP (fun i => decide (cells i = .corrected)) :=
      List.countP_congr (fun i hi => by rw [same i (List.mem_range.1 hi)])
    rw [h2, e]

/-! ### The slot cache (R85 to R90) -/

/-- A valid entry is the one that a lookup of its pair finds. -/
theorem Cache.find_of_distinct {c : Cache} (hd : c.distinct) {i e} (h : c.entries.get i = some e) :
    c.find e.region e.slot = some i := by
  unfold Cache.find
  cases hf : (List.finRange 24).find? _ with
  | none =>
    have := List.find?_eq_none.1 hf i (by simp)
    simp [h] at this
  | some j =>
    have := List.find?_some hf
    cases hj : c.entries.get j with
    | none => simp [hj] at this
    | some e' =>
      simp [hj] at this
      rw [hd i j e e' h hj this.1.symm this.2.symm]

/-- No valid entry holds the pair: the lookup misses. -/
theorem Cache.find_none {c : Cache} {r slot} (h : ∀ i e, c.entries.get i = some e → ¬(e.region = r ∧ e.slot = slot)) :
    c.find r slot = none := by
  unfold Cache.find
  rw [List.find?_eq_none]
  intro i _
  cases hi : c.entries.get i with
  | none => simp
  | some e => have := h i e hi; simp; intro h1 h2; exact this ⟨h1, h2⟩

/-- An entry found holds the pair. -/
theorem Cache.find_some {c : Cache} {r : RegionId} {slot : Nat} {i : Fin 24} (h : c.find r slot = some i) :
    ∃ e, c.entries.get i = some e ∧ e.region = r ∧ e.slot = slot := by
  have := List.find?_some h
  cases hi : c.entries.get i with
  | none => simp [hi] at this
  | some e => simp [hi] at this; exact ⟨e, rfl, this⟩

/-- The lowest-numbered invalid entry. -/
theorem Cache.firstInvalid_eq {c : Cache} {i} (h : c.entries.get i = none) (hm : ∀ j, j < i → c.entries.get j ≠ none) :
    c.firstInvalid = some i := by
  unfold Cache.firstInvalid
  rw [List.find?_eq_some_iff_getElem]
  refine ⟨by simp [h], i.val, by simp, by simp, ?_⟩
  intro j hj
  have := hm ⟨j, by omega⟩ (Fin.lt_def.2 hj)
  simpa [Option.isSome_iff_ne_none] using this

/-! ### The event queue (R158) -/

/-- A raise of a pending key replaces its entry in place. -/
theorem enqueue_pending (before : List EventEntry) (e) (after) (key payload) (hk : e.key = key) (h : ∀ x ∈ before ++ after, x.key ≠ key) :
  enqueue (before ++ e :: after) key payload = before ++ ⟨key, payload, true⟩ :: after := by
  unfold enqueue
  rw [if_pos (by simp [hk])]
  have : ∀ l : List EventEntry, (∀ x ∈ l, x.key ≠ key) → l.map (fun e => if e.key = key then (⟨key, payload, true⟩ : EventEntry) else e) = l := by
    intro l hl
    induction l with
    | nil => rfl
    | cons a l ih =>
      simp [hl a (by simp)]
      exact ih (fun x hx => hl x (by simp [hx]))
  simp only [List.map_append, List.map_cons]
  rw [this before (fun x hx => h x (by simp [hx])), this after (fun x hx => h x (by simp [hx]))]
  simp [hk]

/-- A raise of a key that is not pending appends an entry. -/
theorem enqueue_new {l : List EventEntry} {key : EventKey} {payload : Payload} (h : ∀ e ∈ l, e.key ≠ key) :
    enqueue l key payload = l ++ [⟨key, payload, false⟩] := by
  unfold enqueue; rw [if_neg]; simpa using h

/-! ### Reservations, claims and stop notices (R23 to R26, R116) -/

/-- Everything a reservation that succeeds does. -/
theorem reserve_some {r : RegionId} {n : Nat} {s t : State} (h : reserve r n s = some t) :
    n ≤ s.alloc.available ∧ t = evaluateNotice { s with alloc := { s.alloc with
      reservations := s.alloc.reservations.set r.val n r.isLt, reservedTotal := s.alloc.reservedTotal + n } } := by
  unfold reserve at h
  split at h
  · next hn => exact ⟨hn, (Option.some.inj h).symm⟩
  · cases h

/-- Everything a claim that succeeds does. -/
theorem claimPage_some {r : RegionId} {s t : State} {page : Nat} (h : claimPage r s = some (page, t)) :
    ∃ rest, s.alloc.pool = page :: rest ∧
      ((0 < s.reservation r ∧ t = evaluateNotice
          (let u := (takePage r page rest s).setReservation r (s.reservation r - 1)
           u.setAlloc { u.alloc with reservedTotal := u.alloc.reservedTotal - 1 })) ∨
        (s.reservation r = 0 ∧ 1 ≤ s.alloc.available ∧ t = evaluateNotice (takePage r page rest s))) := by
  unfold claimPage at h
  split at h
  · cases h
  · next q rest hq =>
    split at h
    · next hr =>
      obtain ⟨rfl, rfl⟩ := Prod.mk.inj (Option.some.inj h)
      exact ⟨rest, hq, .inl ⟨hr, rfl⟩⟩
    · next hr =>
      split at h
      · next ha =>
        obtain ⟨rfl, rfl⟩ := Prod.mk.inj (Option.some.inj h)
        exact ⟨rest, hq, .inr ⟨by omega, ha, rfl⟩⟩
      · cases h

/-- The return of a reservation (R26). -/
theorem returnReservation_spec (r : RegionId) (s : State) : (returnReservation r s).reservation r = 0 ∧
   (∀ q, q ≠ r → (returnReservation r s).reservation q = s.reservation q) ∧
   (returnReservation r s).alloc.reservedTotal = s.alloc.reservedTotal - s.reservation r := by
  unfold returnReservation
  split
  · next h => simp [h]
  · simp; intro q hq; simp [hq]

/-- The stop notice of a region reaches its bound port alone. -/
theorem stopRegionWriter_port (r : RegionId) (s : State) (p : PortId) :
   (stopRegionWriter r s).port p = if (s.region r).boundPort = some p then (s.port p).stopped else s.port p := by
  unfold stopRegionWriter
  split
  · next q hq =>
    by_cases h : p = q
    · subst h; simp [stopNotice, hq]
    · simp [stopNotice, hq, h, Ne.symm h]
  · next hq => simp [hq]

/-! ### Requests -/

/-- The number field of a request is the byte that answers it. -/
theorem numberByte_of_toNat {n : Nat} {b : Byte} {r : Fin n} (h : b.toNat = r.val) : numberByte r.val = b := by
  simp [numberByte, ← h]

/-- A request command is served by the request engine. -/
theorem exec_request (s : State) (c : Instr) (q : Request) (h : c.request = some q) :
   ∃ owner : State → State, exec c s = .next (serve q.kind q.tag q.body owner s) := by
  cases c <;> simp only [Instr.request] at h <;> first | (cases h; exact ⟨_, rfl⟩) | cases h

end Sys2Proof.Machine
end

