-- ==== Sys2Proof/Tests/Slice0.lean ====
section
/-! SUPPORT. Tests: an ill-formed command for each check of WellFormed, one-step tests whose expected values are those of the
spec's worked examples and tables, and a witness for the hypotheses of every statement that has any. -/

namespace Sys2Proof.Tests

-- one proof at a time: each kernel evaluation waits in a thread of its own
set_option Elab.async false

open Sys2Proof Sys2Proof.Machine

/-! ### Ill-formed commands -/

theorem test_word_index_out_of_range_refused :
    (Instr.sweepStepComplete [(512, ⟨.corrected, none⟩)]).wellFormed = false ∧
    (Instr.recordReadComplete [(512, .corrected)]).wellFormed = false := by decide

theorem test_word_indices_not_rising_refused :
    (Instr.sweepStepComplete [(3, ⟨.corrected, none⟩), (3, ⟨.clean, none⟩)]).wellFormed = false := by decide

theorem test_uncorrectable_word_with_data_refused :
    (Instr.directoryReadComplete ⟨.uncorrectable, some 0⟩).wellFormed = false ∧
    (Instr.directoryWriteComplete ⟨.uncorrectable, some 0⟩).wellFormed = false ∧
    (Instr.sweepStepComplete [(0, ⟨.uncorrectable, some 0⟩)]).wellFormed = false := by decide

theorem test_clean_word_listed_refused : (Instr.recordReadComplete [(0, .clean)]).wellFormed = false := by decide

theorem test_known_kind_as_unknown_refused : (Instr.unknownKind 0x01 0 []).wellFormed = false := by decide

theorem test_body_of_63_bytes_refused :
    (Instr.identify 0 (List.replicate 63 0)).wellFormed = false ∧
    (Instr.openWindow 0 (List.replicate 62 0)).wellFormed = true := by decide

/-! ### Small states -/

/-- A machine in RUN with an ACTIVE link and a pool of five pages. -/
def run : State := { State.reset with
  device := .run
  link := { State.reset.link with state := .active }
  store := { State.reset.store with condition := .serving, initProgress := 16384, port := none }
  alloc := { State.reset.alloc with pool := [40, 41, 42, 43, 44], threshold := 0 } }

/-- The state with one request accepted and waiting for the engine. -/
def asked (kind tag : Byte) (body : List Byte) (s : State) : State :=
  { s with link := { s.link with requests := [⟨kind, tag, body⟩], outstanding := 1 } }

/-- The state with an operation on the store port. -/
def working (op : StoreOp) (s : State) : State := { s with store := { s.store with port := some op } }

/-- The state after a command. -/
def after (c : Instr) (s : State) : State :=
  match exec c s with
  | .next t => t
  | _ => s

/-- Status and body of the reply frame that is being sent. -/
def sent (s : State) : Option (Byte × List Byte) := s.link.transmitting.map (fun f => (f.statusOrSource, f.body))

/-- Region 3 of the examples of 3.11, after `committed` completions. -/
def region3 (committed : Nat) : Region := { Region.reset with
  state := .triggered, params := some ⟨8, 8, 2, 5, .holdWriter, 4⟩, committed := committed, oldest := 32,
  trigger := some ⟨6, .marker⟩, boundPort := some 1 }

/-- Region 3 with its port, a record write of seq 10 on the store port. -/
def capture3 : State := working (.recordWrite 1 ⟨3, 40, 2560, [1, 2]⟩)
  ((((run.setRegion 3 (region3 10)).setReservation 3 3).setAlloc
    { run.alloc with reservations := run.alloc.reservations.set 3 3, reservedTotal := 3 }).setPort 1
    { Port.reset with binding := some 3, writer := .running, fillPage := some ⟨40, 0⟩, inFlight := some 10 })

/-- Region 5 of the worked example of chapter 6, with window 0's pin. -/
def region5 : Region := { Region.reset with
  state := .triggered, params := some ⟨12, 2, 0, 100, .holdWriter, 0⟩, committed := 10, oldest := 8, wrapLength := some 2,
  trigger := some ⟨9, .host⟩, boundPort := some 1 }

/-- Region 10 of the worked example of chapter 7, with a pin policy, committed count and oldest rolling seq. -/
def region10 (policy : PinPolicy) (committed oldest : Nat) : Region := { Region.reset with
  state := .triggered, params := some ⟨9, 4, 1, 1000, policy, 0⟩, committed := committed, oldest := oldest,
  rollingCount := 3, wrapLength := some 3, trigger := some ⟨30, .host⟩, boundPort := some 0 }

/-- Window 2 of the worked example of chapter 7. -/
def window2 : Window := { Window.reset with
  state := .opened, region := 10, first := 20, last := 27, cursor := 20, pin := .standing }

/-- A fetch of window 2, with so many records gathered. -/
def fetch2 (gathered : Nat) : Fetch :=
  ⟨0x51, false, 8, 8, 20, List.replicate gathered [7], 20 + gathered, .read, none⟩

/-- Region 10 and window 2 under HOLD_WRITER at step 0. -/
def pinned : State := (run.setRegion 10 (region10 .holdWriter 38 16)).setWindow 2 window2

/-- Region 10 at step 6 under HOLD_WRITER: the writer STARVED for seq 40, window 2 at its end. -/
def starved : State := ((run.setRegion 10 (region10 .holdWriter 40 16)).setWindow 2 { window2 with cursor := 28 }).setPort 0
  { Port.reset with binding := some 10, writer := .starved, staging := [⟨[9], false⟩],
                    claim := some ⟨5, .pinHold, some ⟨2, 2⟩, some 122⟩ }

/-- The allocator of the example of 2.10 after step 2: region 2 RELEASING, the walk at a page. -/
def walk (page returned : Nat) (armed : Bool) (pool : List Nat) : State :=
  let s := run.setRegion 2 { Region.reset with state := .releasing, params := some ⟨12, 8, 1, 1, .holdWriter, 0⟩ }
  { s with alloc := { s.alloc with
      table := [(21, .owned 2 false), (57, .owned 2 true), (300, .owned 2 false)], pool := pool, reservedTotal := 2
      ownedPages := s.alloc.ownedPages.set 2 3, threshold := 3, armed := armed
      scanner := .releaseWalk 2 page returned 0 0x22 false } }

/-! ### One step of each command

Expected values are the spec's: the example or rule is named in each comment. -/

-- the check value of the polynomial and initial value of R169 over "123456789"
theorem test_frame_check : frameCheck [0x31, 0x32, 0x33, 0x34, 0x35, 0x36, 0x37, 0x38, 0x39] = 0x29B1 := by decide +kernel

-- R167, R163, R15
theorem test_hard_reset : let t := after (.hardReset .rstN 2 .sweep) capture3
    (t.link.lineRate, t.events.readyCause, t.store.port, (t.region 3).state, t.alloc.pool) =
      (.mbit12, .pin, some (.sweepStep 0), .unused, []) := by decide +kernel

-- "a sweep retiring two pages", steps 2 and 3
theorem test_sweep_retires_page_37 :
    let t := after (.sweepStepComplete [(9, ⟨.uncorrectable, none⟩)]) (working (.sweepStep 37) State.reset)
    (t.store.initProgress, t.alloc.retiredList, t.store.port) = (38, [⟨37, .sweep, none⟩], some (.sweepStep 38)) := by
  decide +kernel

theorem test_sweep_corrected_matching_word_is_good :
    let t := after (.sweepStepComplete [(9, ⟨.corrected, none⟩)]) (working (.sweepStep 2000) State.reset)
    (t.store.initProgress, t.alloc.retiredList, t.store.correctable) = (2001, [], 1) := by decide +kernel

-- R15
theorem test_directory_clear : let t := after .directoryClearComplete (working (.directoryClear 14) State.reset)
    (t.store.initProgress, t.store.port) = (15, some (.directoryClear 15)) := by decide +kernel

/-- The example of 6.1: port 3 at step 2, or with so many bytes of the record begun at step 3. -/
def assembling (bytes arrived short : Nat) : State :=
  (run.setRegion 8 { Region.reset with
      state := .armed, params := some ⟨4, 8, 1, 1, .holdWriter, 0⟩, boundPort := some 3 }).setPort 3
    { Port.reset with
      binding := some 8, assembly := some ⟨List.replicate bytes 1, false, 16⟩, staging := [⟨[], false⟩, ⟨[], false⟩]
      counts := ⟨arrived, 30, 0, 0, short, 8⟩, inFlight := some 30, writer := .running }

-- "assembly at a port with 16-byte records", steps 3 and 4
theorem test_record_start_makes_a_short_record : let q := (after (.byteStrobe 3 5 true false) (assembling 10 40 0)).port 3
    (q.assembly, q.counts.arrived, q.counts.dropShort, q.staging.length) = (some ⟨[5], false, 16⟩, 41, 1, 2) := by decide +kernel

theorem test_last_byte_stages_the_record : let q := (after (.byteStrobe 3 5 false false) (assembling 15 41 1)).port 3
    (q.assembly, q.counts.arrived, q.counts.dropShort, q.staging.length) = (none, 42, 1, 3) := by decide +kernel

-- "A capture from ARM to post-count stop", step 7; "The same capture with STOP taken first", step 8
theorem test_post_count_stop : let t := after .recordWriteComplete capture3
    ((t.region 3).state, (t.region 3).committed, (t.region 3).stopCause, t.reservation 3, t.link.transmitting.map (·.body)) =
      (.stopped, 11, some .postCount, 0, some ([2, 1, 0, 0, 0, 0, 0, 11, 0, 0, 0, 0, 0, 6])) := by decide +kernel

theorem test_completion_after_stop :
    let t := after .recordWriteComplete (capture3.setRegion 3 { region3 10 with state := .stopped, stopCause := some .host })
    ((t.region 3).committed, (t.region 3).stopCause, (t.port 1).counts.stored, (t.port 1).inFlight) =
      (11, some .host, 1, none) := by decide +kernel

/-- A cache whose 24 entries are valid, the victim pointer at 23 (5.6, after step 2). -/
def fullCache : Cache where
  entries := Vector.ofFn (fun i => some ⟨9, i.val, 500 + i.val⟩)
  victim := 23
  hits := 0
  misses := 0

-- "hits, misses, replacement and purge", step 4: slot 3 of page 4 holds page 43
theorem test_fill_replaces_the_victim :
    let s := ({ run with cache := fullCache }.setStore { run.store with memory := [(16391, 43)] }).setRegion 4
      { Region.reset with state := .armed, params := some ⟨10, 6, 2, 1, .breakPin, 0⟩ }
    let t := after (.directoryReadComplete ⟨.clean, none⟩) (working (.directory (.read 4 3 (.window 1))) s)
    (t.cache.entries.get 23, t.cache.victim, t.cache.entries.get 22) = (some ⟨4, 3, 43⟩, 0, some ⟨9, 22, 522⟩) := by
  decide +kernel

/-- The state with words of the DRAM in which an error stands. -/
def erring (errors : List (Nat × WordOutcome)) (s : State) : State := s.setStore { s.store with errors := errors }

-- R62, R91: an uncorrectable directory read faults the region; R148: so does one of a word that a failed write left unreadable
theorem test_uncorrectable_directory_read_faults :
    let s := working (.directory (.read 10 2 (.window 2)))
      (pinned.setWindow 2 { window2 with fetch := some { fetch2 4 with stage := .lookup } })
    let faulted := fun t : State =>
      ((t.region 10).state, (t.region 10).stopCause, (t.region 10).faultPage, (t.window 2).cursor, (t.window 2).fetch) =
        (.faulted, some .fault, some 10, 24, none)
    faulted (after (.directoryReadComplete ⟨.uncorrectable, none⟩) s) ∧
    faulted (after (.directoryReadComplete goodRead) (erring [(5120, .uncorrectable)] s)) := by decide +kernel

-- R3, R74: page 0x0102 into slot 2 of region 4, then its record write
theorem test_directory_write_stores_high_byte_first :
    let s := (run.setRegion 4 { Region.reset with
        state := .armed, params := some ⟨10, 6, 2, 1, .breakPin, 0⟩, committed := 8, boundPort := some 2 }).setPort 2
      { Port.reset with
        binding := some 4, writer := .running, staging := [⟨[7], false⟩], claim := some ⟨2, .directoryWrite, none, some 258⟩ }
    let t := after (.directoryWriteComplete ⟨.clean, none⟩) (working (.directory (.write 4 2 258 2)) s)
    (t.store.memory, t.store.port, (t.port 2).inFlight) =
      ([(16388, 1), (16389, 2)], some (.recordWrite 2 ⟨4, 258, 0, [7]⟩), some 8) := by decide +kernel

-- R2, R144: a word found corrected before reads corrected again, and is counted again; the write leaves it without an error
theorem test_directory_write_mends_the_word :
    let t := after (.directoryWriteComplete goodRead)
      (erring [(2048, .corrected), (2049, .corrected)] (working (.directory (.write 4 2 258 2)) run))
    (t.store.correctable, t.store.errors) = (1, [(2049, .corrected)]) := by decide +kernel

-- R2, R148: the error that stands after a record read of one corrected and one uncorrectable word, and after a failed write
theorem test_errors_that_stand :
    (readWords 9 2 (fun i => if i = 0 then .corrected else .uncorrectable) run).store.errors = [(9, .corrected)] ∧
    (after (.directoryWriteComplete ⟨.uncorrectable, none⟩) (working (.directory (.write 4 2 258 2)) run)).store.errors =
      [(2048, .uncorrectable)] := by decide +kernel

-- R128, R133: seq 8 of a fetch lies in the gap [8, 16) that a recycle has opened; the fetch goes on to it
theorem test_fetch_goes_on_after_a_recycle :
    let f : Fetch := ⟨0x51, false, 8, 2, 7, [], 7, .read, none⟩
    let t := fetchRecord 2 f [] (pinned.setWindow 2 { window2 with first := 0, cursor := 7, fetch := some f })
    ((t.window 2).fetch.map (fun f => (f.current, f.stage)), t.store.directoryOps) =
      (some (8, .lookup), [.read 10 1 (.window 2)]) := by decide +kernel

-- "a pinned window under HOLD_WRITER, then under BREAK_PIN": BREAK_PIN step 5, HOLD_WRITER step 5
theorem test_record_read_expired :
    let s := ((run.setRegion 10 (region10 .breakPin 40 24)).setWindow 2
      { window2 with pin := .broken, fetch := some (fetch2 3) })
    let t := after (.recordReadComplete []) (working (.recordRead 2 ⟨122, 3584, 512⟩) s)
    ((t.window 2).cursor, (t.window 2).fetch, t.link.transmitting.map (fun f => (f.statusOrSource, f.body.take 16))) =
      (23, none, some (0x03, [2, 9, 0, 3, 0, 0, 0, 0, 0, 20, 0, 0, 0, 0, 0, 23])) := by decide +kernel

-- R2: two words corrected, one of them found so by an earlier read
theorem test_record_read_ends_the_fetch :
    let s := erring [(63169, .corrected)] (pinned.setWindow 2 { window2 with fetch := some (fetch2 7) })
    let t := after (.recordReadComplete [(0, .corrected)]) (working (.recordRead 2 ⟨123, 1536, 512⟩) s)
    ((t.window 2).cursor, (t.window 2).fetch, t.store.correctable, t.store.errors) =
      (28, none, 2, [(63168, .corrected), (63169, .corrected)]) := by decide +kernel

-- "a release walk beside a running capture", steps 4 and 6
theorem test_release_walk_returns_page_21 : let t := after .releaseWalkStep (walk 21 1 false [900, 901, 902, 20])
    (t.alloc.pool, t.alloc.armed, t.owned 2, t.alloc.scanner) =
      ([900, 901, 902, 20, 21], true, 2, .releaseWalk 2 22 2 0 0x22 false) := by decide +kernel

theorem test_release_walk_retires_page_57 : let t := after .releaseWalkStep (walk 57 2 false [901, 902, 20, 21])
    (t.alloc.pool, t.alloc.retiredList, tableEntry t.alloc.table 57, t.alloc.scanner) =
      ([901, 902, 20, 21], [⟨57, .release, some 2⟩], .retired, .releaseWalk 2 58 2 1 0x22 false) := by decide +kernel

/-- RESTARTING with the store idle. -/
def restarting : State := { run with device := .restarting, restart := some ⟨0x42, false⟩, cache := fullCache }

-- R34, R96
theorem test_restart_walk_begins : let t := after .restartWalkBegin restarting
    (t.alloc.scanner, t.cache) = (.restartWalk 16, Cache.reset) := by decide +kernel

theorem test_restart_walk_retires_a_suspect_page :
    let t := after .restartWalkStep { walk 57 0 false [900] with
      alloc := { (walk 57 0 false [900]).alloc with scanner := .restartWalk 57 } }
    (t.alloc.retiredList, t.alloc.scanner) = ([⟨57, .restart, some 2⟩], .restartWalk 58) := by decide +kernel

/-- The bytes of an IDENTIFY request with tag 0x07, but for the last (R181; its CHECK, 0xA976, computed apart). -/
def identifyFrame : List Byte := [0xA5, 0x00, 0x02, 0x01, 0x07, 0xA9]

-- R169, R172, R174, and R163: the first valid frame makes the link ACTIVE and raises READY
theorem test_frame_received :
    let t := after (.frameReceived 0x76) { run with link := { run.link with state := .quiet, kept := identifyFrame } }
    (t.link.state, t.link.requests, t.link.outstanding, t.link.kept, t.link.transmitting.map (·.tagOrKind)) =
      (.active, [⟨0x01, 0x07, []⟩], 1, [], some 0x80) := by decide +kernel

theorem test_wrong_check_is_rescanned :
    let t := after (.frameReceived 0x77) { run with link := { run.link with kept := identifyFrame } }
    (t.link.requests, t.link.kept, t.link.transmitting.map (fun f => (f.tagOrKind, f.body))) =
      ([], [], some (0x81, [2, 0, 0x07])) := by decide +kernel

-- R167, R168
theorem test_framing_error_discarded : exec (.characterTaken 0xA5 false) run = .next run := rfl

theorem test_length_above_64_discarded :
    let t := after (.characterTaken 0xA5 true) { run with link := { run.link with kept := [0xA5, 0x41] } }
    (t.link.kept, t.link.transmitting.map (·.body)) = ([0xA5], some [0, 1, 0]) := by decide +kernel

-- R170, R171
theorem test_timeout_carries_the_tag :
    let t := after .interByteTimeout { run with link := { run.link with kept := identifyFrame } }
    (t.link.kept, t.link.transmitting.map (·.body)) = ([], some [2, 2, 0x07]) := by decide +kernel

-- "a link break with three requests outstanding", steps 1 and 5
theorem test_link_break :
    let s := (run.setWindow 1 { window2 with fetch := some (fetch2 2) })
    let t := after .linkBreak { s with
      link := { s.link with epoch := 4, outstanding := 3, runCount := 2, replies := [⟨0x23, .ok, []⟩] }
      events := ⟨[⟨.mark 3, .mark 4096, false⟩], .power⟩ }
    (t.link.state, t.link.epoch, t.link.outstanding, t.link.replies, t.link.runCount) = (.quiet, 5, 0, [], 0) ∧
    (t.events, (t.window 1).fetch.map (·.stale)) = (⟨[⟨.mark 3, .mark 4096, false⟩], .link⟩, some true) := by decide +kernel

theorem test_reply_goes_before_the_event :
    let t := after .transmitFrameEnd { run with
      link := { run.link with
        outstanding := 1, replies := [⟨0x30, .ok, []⟩], transmitting := some ⟨.event, 0x85, 8, 3, []⟩ }
      events := ⟨[⟨.ready, .ready .link, false⟩], .link⟩ }
    (t.link.outstanding, t.link.runCount, t.link.transmitting, t.events.entries.length) =
      (0, 1, some ⟨.reply, 0x30, 8, 0, []⟩, 1) := by decide +kernel

-- R183, R187
theorem test_unknown_kind : sent (after (.unknownKind 0x06 7 []) (asked 0x06 7 [] run)) = some (0x19, []) := by decide +kernel

-- R194 and the layout of 11.5
theorem test_identify : sent (after (.identify 7 []) (asked 0x01 7 [] run)) =
    some (0, [0x26, 0x40, 0x01, 0x10, 0x00, 0x40, 0x00, 0x3F, 0xF0, 16, 4, 4, 24, 0]) := by decide +kernel

-- "lengths of typical frames": a STATUS reply has 40 body bytes
theorem test_status_length : (sent (after (.status 7 []) (asked 0x02 7 [] run))).map (·.2.length) = some 40 := by decide +kernel

-- "RESTART over a release walk, a capture and a fetch", step 1
theorem test_restart_begins :
    let t := after (.restart 0x42 []) (asked 0x03 0x42 [] ((walk 22 3 false [900]).setPort 1
      { Port.reset with binding := some 5, writer := .running, inFlight := some 700,
                        staging := [⟨[], false⟩, ⟨[], false⟩, ⟨[], false⟩] }))
    ((t.port 1).writer, (t.port 1).halted, (t.port 1).counts.dropFlush, (t.port 1).inFlight) = (.idle, true, 3, some 700) ∧
    (t.device, t.link.engine, t.alloc.scanner, sent t) = (.restarting, .held, .idle, some (0x17, [2, 0, 3, 0, 0])) := by decide +kernel

-- R37, R36: 5 pages available, threshold 6; POOL_LOW carries Available, reserved total and T
theorem test_set_pool_notice : let t := after (.setPoolNotice 7 [0, 6]) (asked 0x04 7 [0, 6] run)
    (t.alloc.threshold, t.alloc.armed, t.link.replies.map (·.body), t.link.transmitting.map (·.body)) =
      (6, false, [[0, 6, 0, 5, 0, 0]], some [0, 0, 5, 0, 0, 0, 6]) := by decide +kernel

-- R35 and the layout of 11.5: an offset at the list's length reports no entry
theorem test_retired_at_the_end :
    sent (after (.retired 7 [0, 1]) (asked 0x05 7 [0, 1] { run with alloc := { run.alloc with
      retiredList := [⟨57, .release, some 2⟩] } })) = some (0, [0, 1, 0, 0, 1, 0, 0]) := by decide +kernel

-- "A capture from ARM to post-count stop": region 3 with c = 8, Q = 8, A = 2, P = 5, M = 4; rpp is 16
theorem test_define : let body : List Byte := [3, 8, 0, 8, 0, 2, 0, 0, 0, 5, 0, 0, 0, 4]
    let t := after (.define 7 body) (asked 0x10 7 body run)
    ((t.region 3).params, (t.region 3).oldest, sent t) =
      (some ⟨8, 8, 2, 5, .holdWriter, 4⟩, 32, some (0, body ++ [0, 16])) := by decide +kernel

theorem test_define_anchor_too_large : let body : List Byte := [3, 8, 0, 3, 0, 2, 0, 0, 0, 5, 0, 0, 0, 4]
    sent (after (.define 7 body) (asked 0x10 7 body run)) = some (0x11, 3 :: List.replicate 15 0) := by decide +kernel

/-- Region 4 of the worked example of chapter 4, IDLE. -/
def region4 : Region := { Region.reset with
  state := .idle, params := some ⟨10, 6, 2, 1, .breakPin, 0⟩, boundPort := some 2 }

-- "early wrap and two recycles", step 0
theorem test_arm :
    let s := (run.setRegion 4 region4).setPort 2 { Port.reset with binding := some 4 }
    let t := after (.arm 7 [4]) (asked 0x11 7 [4] s)
    ((t.region 4).state, (t.region 4).oldest, t.reservation 4, t.alloc.available) = (.armed, 8, 4, 1) ∧
    ((t.port 2).writer, sent t) = (.running, some (0, [4, 0, 4, 0, 1])) := by decide +kernel

-- "a release walk beside a running capture", step 3: Available 2, A + 2 = 3
theorem test_arm_without_pages : sent (after (.arm 7 [9]) (asked 0x11 7 [9] ((walk 21 1 false [900, 901, 902, 20]).setRegion 9
      { Region.reset with state := .idle, params := some ⟨12, 8, 1, 1, .holdWriter, 0⟩ }))) =
    some (0x12, [9, 0, 3, 0, 2]) := by decide +kernel

-- "A capture from ARM to post-count stop", step 5
theorem test_trigger_after_a_marker : sent (after (.trigger 7 [3]) (asked 0x12 7 [3] capture3)) =
    some (0, [3, 3, 0, 0, 0, 0, 0, 6, 1]) := by decide +kernel

-- "The same capture with STOP taken first", step 7
theorem test_stop : let t := after (.stop 7 [3]) (asked 0x13 7 [3] capture3)
    ((t.region 3).state, (t.region 3).committed, (t.port 1).writer, (t.port 1).inFlight,
        t.link.transmitting.map (·.body)) =
      (.stopped, 10, .idle, some 10, some [2, 2, 0, 0, 0, 0, 0, 10, 0, 0, 0, 0, 0, 6]) := by decide +kernel

-- "a writer held by a pin", NOTE 5: RELEASE while a record write is in flight
theorem test_release_busy : sent (after (.release 7 [3]) (asked 0x14 7 [3]
      (capture3.setRegion 3 { region3 10 with state := .stopped }))) = some (0x13, [3, 0, 0, 0, 0]) := by decide +kernel

-- "a release walk beside a running capture", step 1
theorem test_release :
    let t := after (.release 7 [3]) (asked 0x14 7 [3] (run.setRegion 3 { region3 11 with state := .stopped }))
    ((t.region 3).state, t.alloc.scanner, sent t) = (.releasing, .releaseWalk 3 16 0 0 7 false, none) := by decide +kernel

-- "lengths of typical frames": a QUERY reply has 50 body bytes
theorem test_query : (sent (after (.query 7 [3]) (asked 0x15 7 [3] capture3))).map (fun x => (x.1, x.2.take 4, x.2.length)) =
    some (0, [3, 3, 3, 8], 50) := by decide +kernel

-- "a quiet spell and a link break", step 5
theorem test_set_events_removes_the_mark :
    let t := after (.setEvents 7 [3, 4]) (asked 0x16 7 [3, 4] { capture3 with
      events := ⟨[⟨.mark 3, .mark 8192, true⟩, ⟨.poolLow, .poolLow 200 12 256, false⟩, ⟨.overrun 1, .overrun 1, false⟩], .power⟩ })
    ((t.region 3).eventMask, t.events.entries.map (·.key)) = (4, [.poolLow, .overrun 1]) := by decide +kernel

-- R107: the port moves from region 4 to region 3
theorem test_bind : let s := (((run.setRegion 4 region4).setRegion 3 { region3 0 with state := .idle, boundPort := none }).setPort 2
      { Port.reset with binding := some 4, counts := ⟨5, 0, 5, 0, 0, 0⟩ })
    let t := after (.bindPort 7 [2, 3, 3]) (asked 0x20 7 [2, 3, 3] s)
    ((t.port 2).binding, (t.region 4).boundPort, (t.region 3).boundPort, (t.port 2).counts.arrived, (t.port 2).markerEnable) =
      (some 3, none, some 2, 0, true) := by decide +kernel

-- R108 and 11.5: 46 body bytes, with the write of seq 10 in flight
theorem test_port_query : (sent (after (.portQuery 7 [1]) (asked 0x21 7 [1] capture3))).map
    (fun x => (x.1, x.2.take 14, x.2.length)) = some (0, [1, 3, 16, 1, 0, 0, 0, 0, 0, 0, 0, 0, 0, 10], 46) := by decide +kernel

-- "a pinned window ... under BREAK_PIN", step 9: OPEN of [24, 31], and one whose range has been recycled (R124)
theorem test_open : let body : List Byte := [2, 10, 0, 0, 0, 0, 0, 24, 0, 0, 0, 0, 0, 31, 1]
    let t := after (.openWindow 7 body) (asked 0x30 7 body (run.setRegion 10 (region10 .breakPin 41 24)))
    (t.window 2, (sent t).map (·.1)) =
      ({ Window.reset with state := .opened, region := 10, first := 24, last := 31, cursor := 24, pin := .standing }, some 0) := by
  decide +kernel

theorem test_open_expired : let body : List Byte := [2, 10, 0, 0, 0, 0, 0, 20, 0, 0, 0, 0, 0, 27, 1]
    (sent (after (.openWindow 7 body) (asked 0x30 7 body (run.setRegion 10 (region10 .breakPin 41 24))))).map (·.1) =
      some 0x03 := by decide +kernel

-- "a pinned window under HOLD_WRITER", step 1, and "... under BREAK_PIN", step 6
theorem test_fetch : let t := after (.fetch 7 [2, 0, 8]) (asked 0x31 7 [2, 0, 8] pinned)
    ((t.window 2).fetch, t.store.port, t.cache.misses) =
      (some ⟨7, false, 8, 8, 20, [], 20, .lookup, none⟩, some (.directory (.read 10 2 (.window 2))), 1) := by decide +kernel

theorem test_fetch_expired :
    sent (after (.fetch 7 [2, 0, 8]) (asked 0x31 7 [2, 0, 8] ((run.setRegion 10 (region10 .breakPin 40 24)).setWindow 2
      { window2 with cursor := 23, pin := .broken }))) =
    some (0x03, [2, 9, 0, 0, 0, 0, 0, 0, 0, 23, 0, 0, 0, 0, 0, 23]) := by decide +kernel

-- "a pinned window under HOLD_WRITER", step 7
theorem test_close_ends_the_pin : let t := after (.closeWindow 7 [2]) (asked 0x32 7 [2] starved)
    ((t.window 2).state, (t.window 2).pin, (t.region 10).oldest) = (.closed, .none, 24) ∧
    ((t.port 0).writer, (t.port 0).inFlight, t.store.port) = (.running, some 40, some (.recordWrite 0 ⟨10, 122, 0, [9]⟩)) := by decide +kernel

-- R136 and 11.5: 31 body bytes
theorem test_window_query : (sent (after (.windowQuery 7 [2]) (asked 0x33 7 [2] pinned))).map
    (fun x => (x.1, x.2.take 3, x.2.length)) = some (0, [2, 1, 10], 31) := by decide +kernel

-- "a record read under steady capture", grants 8 and 9
theorem test_fetch_guard :
    let w : RecordWrite := ⟨0, 40, 0, []⟩
    let st : Store := { run.store with
      fetchWait := 8, portPointer := 0, writes := ⟨#[some w, some w, some w, none], rfl⟩
      reads := ⟨#[none, some ⟨50, 0, 16⟩, none, none], rfl⟩ }
    (st.grant.port, st.grant.fetchWait, st.grant.portPointer, st.grant.windowPointer) =
      (some (.recordRead 1 ⟨50, 0, 16⟩), 0, 0, 1) ∧
    ({ st with fetchWait := 7 }.grant.port, { st with fetchWait := 7 }.grant.fetchWait) = (some (.recordWrite 1 w), 8) := by
  decide +kernel

-- R12, the front of the queue, and the idle step
theorem test_step : step { run with pending := [.linkBreak, .releaseWalkStep] } =
    exec .linkBreak { run with pending := [.releaseWalkStep] } ∧ step run = .next run := ⟨rfl, rfl⟩

theorem test_reset_memory_is_canonical : Memory.wf State.reset.store.memory := by decide

/-! ### Witnesses: for each statement a state and operands that meet the hypotheses of each of its clauses -/

/-- A request that the engine can take. -/
theorem requested (kind tag : Byte) (body : List Byte) (s : State) (he : s.link.engine = .running) (hd : s.device = .run) :
    Requested (asked kind tag body s) kind tag body [] := ⟨⟨he, rfl⟩, by simp [asked, hd]⟩

theorem witness_StepRunsTheFrontCommand :
    { run with pending := [.linkBreak] }.pending = .linkBreak :: [] ∧ State.reset.pending = [] := ⟨rfl, rfl⟩

theorem witness_CommandsComplete : exec .linkBreak run = .next (after .linkBreak run) ∧
    ∀ cause rate mode, Instr.linkBreak ≠ .hardReset cause rate mode := ⟨rfl, by intros; simp⟩

theorem witness_ImpossibleEventsChangeNothing :
    (∀ page, (working (.directoryClear 0) run).store.port ≠ some (.sweepStep page)) ∧
    (∀ page, (working (.sweepStep 0) run).store.port ≠ some (.directoryClear page)) ∧
    (∀ p op, (working (.sweepStep 0) run).store.port ≠ some (.recordWrite p op)) ∧
    (∀ r slot who, (working (.directory (.write 4 2 43 2)) run).store.port ≠ some (.directory (.read r slot who))) ∧
    (∀ r slot page p, (working (.directory (.read 4 2 (.writer 2))) run).store.port ≠ some (.directory (.write r slot page p))) ∧
    (∀ w op, run.store.port ≠ some (.recordRead w op)) ∧
    (∀ r page n m tag stale, { run.alloc with scanner := .restartWalk 16 }.scanner ≠ .releaseWalk r page n m tag stale) ∧
    (∀ page, (walk 21 1 false []).alloc.scanner ≠ .restartWalk page) ∧
    run.device ≠ .restarting ∧ run.link.kept = [] ∧
    run.link.transmitting = none ∧ (Instr.identify 7 []).request = some ⟨0x01, 7, []⟩ ∧
    run.link.requests.head? ≠ some ⟨0x01, 7, []⟩ ∧ run.link.requests.head? ≠ some ⟨0x06, 7, []⟩ ∧
    (after (.restart 7 []) (asked 0x03 7 [] run)).link.engine = .held := by
  refine ⟨?_, ?_, ?_, ?_, ?_, ?_, ?_, ?_, by decide +kernel, by decide +kernel, by decide +kernel, by decide +kernel,
    by decide +kernel, by decide +kernel, by decide +kernel⟩
  all_goals intros; intro h; cases h

theorem witness_HardResetTakesResetValues : State.reset.store.port ≠ none ∧
    (∀ op, State.reset.store.port = some op → 4096 < op.writeSpan.1 ∨ op.writeSpan.1 + op.writeSpan.2 ≤ 4096) ∧
    ∀ op, State.reset.store.port = some op → 512 < op.writeSpan.1 / 8 ∨ op.writeSpan.1 / 8 + op.writeSpan.2 / 8 ≤ 512 :=
  ⟨by decide, by intro op h; cases h; decide, by intro op h; cases h; decide⟩

/-- A state whose retired list is full. -/
def fullList : State := { State.reset with
  alloc := { State.reset.alloc with retiredList := List.replicate 512 ⟨16, .sweep, none⟩ } }

theorem witness_SweepStepJudgesThePage :
    (working (.sweepStep 0) State.reset).store.port = some (.sweepStep 0) ∧
    (working (.sweepStep 16382) State.reset).store.port = some (.sweepStep 16382) ∧ 16382 + 1 < 16384 ∧
    (15 : RegionId).val = 15 ∧ 16 ≤ 16382 ∧ sweepBad 16382 [(511, ⟨.uncorrectable, none⟩)] ∧ ¬sweepBad 16382 [] ∧
    State.reset.alloc.retiredList.length < 512 ∧ 512 ≤ fullList.alloc.retiredList.length := by
  refine ⟨rfl, rfl, by decide, rfl, by decide, ⟨511, by decide, .inl rfl⟩, ?_, by decide, by decide +kernel⟩
  simp [sweepBad, wordReadAt, goodRead]

theorem witness_DirectoryClearZeroesThePage :
    State.reset.store.port = some (.directoryClear 0) ∧ 0 + 1 < 16 ∧
    (working (.directoryClear 14) State.reset).store.port = some (.directoryClear 14) ∧ 14 + 1 < 16 := by decide

theorem witness_InitializationCompletes :
    (working (.sweepStep 16383) State.reset).store.port = some (.sweepStep 16383) ∧ ¬sweepBad 16383 [] ∧
    sweepBad 16383 [(0, ⟨.uncorrectable, none⟩)] ∧
    (working (.directoryClear 15) State.reset).store.port = some (.directoryClear 15) :=
  ⟨rfl, by simp [sweepBad, wordReadAt, goodRead], ⟨0, by decide, .inl rfl⟩, rfl⟩

/-- A pending MARK of region 3. -/
def markPending (s : State) : State := { s with events := ⟨[⟨.mark 3, .mark 4096, false⟩], .power⟩ }

theorem witness_RaiseTakesTheFirstCase :
    masked (run.setRegion 3 { region3 10 with eventMask := 4 }) (.mark 3) = true ∧
    masked (markPending run) (.mark 3) = false ∧
    (markPending run).events.entries = [] ++ ⟨.mark 3, .mark 4096, false⟩ :: [] ∧
    (∀ e ∈ (markPending run).events.entries, e.key ≠ .ready) ∧ masked (markPending run) .ready = false := by decide +kernel

theorem witness_ArbiterStartsTheFrame :
    let link := { run.link with replies := [⟨0x30, .ok, []⟩], outstanding := 1 }
    let frame : OutFrame := ⟨.reply, 0x30, 8, 0, []⟩
    State.reset.link.state = .quiet ∧ { run.link with transmitting := some frame }.transmitting = some frame ∧
    (run.link.replies = [] ∧ run.events.entries = []) ∧
    (link.transmitting = none ∧ link.state = .active ∧ link.replies = ⟨0x30, .ok, []⟩ :: [] ∧ run.events.entries = []) ∧
    { link with runCount := 3 }.runCount < 4 ∧ 4 ≤ { link with runCount := 4 }.runCount ∧
    (markPending run).events.entries = ⟨.mark 3, .mark 4096, false⟩ :: [] := by decide +kernel

theorem witness_FrameLayouts : 4 ≤ 4 := by decide

/-- A store with record writes waiting for ports 1 and 3 and a record read for window 2. -/
def waiting (fetchWait : Nat) (ops : List DirectoryOp) : Store := { run.store with
  fetchWait := fetchWait, portPointer := 0, windowPointer := 1, directoryOps := ops
  writes := ⟨#[none, some ⟨0, 40, 0, []⟩, none, some ⟨1, 41, 0, []⟩], rfl⟩
  reads := ⟨#[none, none, some ⟨50, 0, 16⟩, none], rfl⟩ }

theorem witness_StoreGrantsInOrder :
    let op : DirectoryOp := .read 0 0 (.window 0)
    State.reset.store.port.isSome = true ∧ State.reset.store.condition = .initializing ∧
    (run.store.directoryOps = [] ∧ (∀ p, run.store.writes.get p = none) ∧ (∀ w, run.store.reads.get w = none)) ∧
    (run.store.port = none ∧ run.store.condition = .serving) ∧
    ({ run.store with directoryOps := [op] }.directoryOps = op :: [] ∧ ∀ w, run.store.reads.get w = none) ∧
    ((waiting 7 [op]).directoryOps = op :: [] ∧ (¬∀ w, (waiting 7 [op]).reads.get w = none) ∧ (waiting 7 [op]).fetchWait < 8) ∧
    ((waiting 7 []).directoryOps = [] ∧ (waiting 7 []).writes.get 1 = some ⟨0, 40, 0, []⟩ ∧
      ∀ q, (waiting 7 []).writes.get q ≠ none →
        1 - ((waiting 7 []).portPointer + 1) ≤ q - ((waiting 7 []).portPointer + 1)) ∧
    ((waiting 8 []).reads.get 2 = some ⟨50, 0, 16⟩ ∧ 8 ≤ (waiting 8 []).fetchWait ∧
      ∀ q, (waiting 8 []).reads.get q ≠ none →
        2 - ((waiting 8 []).windowPointer + 1) ≤ q - ((waiting 8 []).windowPointer + 1)) := by decide +kernel

theorem fullCache_entries : ∀ i, fullCache.entries.get i = some ⟨9, i.val, 500 + i.val⟩ := by decide +kernel

theorem fullCache_distinct : fullCache.distinct := by
  intro i j a b ha hb _ hs
  rw [fullCache_entries] at ha hb
  cases ha; cases hb
  exact Fin.ext hs

theorem witness_CacheLookupAndInstall :
    fullCache.distinct ∧ fullCache.entries.get 23 = some ⟨9, 23, 523⟩ ∧ (∀ i, fullCache.entries.get i ≠ none) ∧
    (∀ i e, fullCache.entries.get i = some e → ¬(e.region = 4 ∧ e.slot = 3)) ∧
    (Cache.reset.entries.get 0 = none ∧ ∀ j, j < 0 → Cache.reset.entries.get j ≠ none) ∧
    (run.setRegion 3 { region3 10 with state := .faulted } |>.region 3).state = .faulted ∧ (run.region 9).state ≠ .faulted := by
  refine ⟨fullCache_distinct, fullCache_entries 23, by decide +kernel, ?_, by decide +kernel⟩
  intro i e he
  rw [fullCache_entries] at he
  cases he
  exact fun h => absurd (show (9 : RegionId) = 4 from h.1) (by decide)

theorem witness_ClaimTakesThePoolHead :
    let s := { run with alloc := { run.alloc with reservations := run.alloc.reservations.set 4 1, reservedTotal := 4 } }
    (run.alloc.pool = 40 :: [41, 42, 43, 44] ∧ 0 < s.reservation 4) ∧
    (s.alloc.pool = 40 :: [41, 42, 43, 44] ∧ s.reservation 5 = 0 ∧ 1 ≤ s.alloc.available) ∧
    (State.reset.reservation 4 = 0 ∧ State.reset.alloc.available = 0) := by decide +kernel

theorem witness_PoolNoticeEvaluates :
    let at_ := fun (armed : Bool) (t : Nat) => { run with alloc := { run.alloc with armed := armed, threshold := t } }
    State.reset.device ≠ .run ∧ run.device = .run ∧
    ((at_ true 6).alloc.armed = true ∧ (at_ true 6).alloc.available < (at_ true 6).alloc.threshold) ∧
    ((at_ true 5).alloc.armed = true ∧ (at_ true 5).alloc.threshold ≤ (at_ true 5).alloc.available) ∧
    ((at_ false 6).alloc.armed = false ∧ (at_ false 6).alloc.available < (at_ false 6).alloc.threshold) ∧
    ((at_ false 5).alloc.armed = false ∧ (at_ false 5).alloc.threshold ≤ (at_ false 5).alloc.available) := by decide +kernel

theorem witness_UnboundPortDropsIdle : (run.port 0).binding = none := by decide

theorem witness_BytesAssembleRecords :
    ((assembling 14 40 0).port 3).binding = some 8 ∧
    ((assembling 14 40 0).region 8).params = some ⟨4, 8, 1, 1, .holdWriter, 0⟩ ∧
    ((assembling 14 40 0).setPort 3 Port.reset |>.port 3).assembly = none ∧
    ((assembling 14 40 0).port 3).assembly = some ⟨List.replicate 14 1, false, 16⟩ ∧
    (List.replicate 14 (1 : Byte)).length + 1 < 16 := by decide +kernel

/-- Port 3 with the last byte of a record to come and so many records staged. -/
def lastByte (staged : Nat) : State :=
  (assembling 15 41 1).setPort 3 { (assembling 15 41 1).port 3 with staging := List.replicate staged ⟨[], false⟩ }

theorem witness_ArrivedRecordsAreDroppedOrStaged :
    ((lastByte 8).port 3).binding = some 8 ∧ ((lastByte 8).port 3).assembly = some ⟨List.replicate 15 1, false, 16⟩ ∧
    (List.replicate 15 (1 : Byte)).length + 1 = 16 ∧
    ((lastByte 8).setRegion 8 Region.reset |>.region 8).capturing = false ∧
    (¬(((lastByte 8).port 3).halted = true ∨ ((lastByte 8).region 8).capturing = false ∨
      16 ≠ ((lastByte 8).region 8).recSize)) ∧
    8 ≤ ((lastByte 8).port 3).staging.length ∧ ((lastByte 7).port 3).staging.length < 8 ∧
    ((lastByte 0).port 3).staging.length < 8 := by decide +kernel

/-- Region 4 of the worked example of chapter 4 with its port's writer RUNNING and one record staged. -/
def writer4 (g : Region) (fill : Option FillPage) : State :=
  (run.setRegion 4 { g with state := .armed }).setPort 2 { Port.reset with
    binding := some 4, markerEnable := true, staging := [⟨[7], true⟩], writer := .running, fillPage := fill }

theorem witness_RecordWriteIsIssued :
    ((writer4 region4 none).port 2).staging = ⟨[7], true⟩ :: [] ∧
    ((writer4 region4 none).region 4).params = some ⟨10, 6, 2, 1, .breakPin, 0⟩ ∧
    (true = true ∧ ((writer4 region4 none).port 2).markerEnable = true ∧ ((writer4 region4 none).region 4).state = .armed) ∧
    ¬(true = true ∧ ((writer4 region4 none).port 2).markerEnable = true ∧
      ((writer4 region4 none).setRegion 4 { region4 with state := .triggered } |>.region 4).state = .armed) := by decide +kernel

theorem witness_WriterTakesTheHeadRecord :
    let fresh := writer4 { region4 with committed := 16, rollingCount := 3 } none
    let full := writer4 { region4 with committed := 24, rollingCount := 4 } none
    let cached := { full with cache := { Cache.reset with entries := Cache.reset.entries.set 5 (some ⟨4, 4, 42⟩) } }
    let ready := fun s : State => (s.port 2).writer = .running ∧ (s.port 2).staging ≠ [] ∧ (s.port 2).inFlight = none ∧
      (s.port 2).claim = none
    (fresh.port 2).binding = some 4 ∧ (¬((run.port 2).writer = .running)) ∧
    (ready (writer4 { region4 with committed := 5 } (some ⟨41, 1⟩)) ∧
      ((writer4 { region4 with committed := 5 } (some ⟨41, 1⟩)).port 2).fillPage = some ⟨41, 1⟩ ∧
      5 % ((writer4 { region4 with committed := 5 } none).region 4).rpp ≠ 0) ∧
    (ready fresh ∧ 16 % (fresh.region 4).rpp = 0 ∧ (fresh.region 4).rollingCount < 6 - 2 ∧
      ∃ t, claimPage 4 fresh = some (40, t)) ∧
    (ready full ∧ ¬((full.region 4).rollingCount < 6 - 2) ∧
      (∃ v, lookupSlot 4 (2 + (6 - 2) % 4) (.writer 2) full = (none, v)) ∧
      ∃ v, lookupSlot 4 4 (.writer 2) cached = (some 42, v)) := by
  refine ⟨by decide +kernel, by decide +kernel, by decide +kernel, ⟨by decide +kernel, by decide +kernel, by decide +kernel, _, rfl⟩,
    by decide +kernel, by decide +kernel, ⟨_, rfl⟩, _, rfl⟩

theorem witness_PinCheckAnswers :
    (∀ w, (starved.window w).first ≤ (starved.window w).last) ∧
    (starved.setRegion 10 Region.reset |>.region 10).capturing = false ∧ (starved.region 10).capturing = true ∧
    (∀ w, ¬((run.window w).state ≠ .closed)) ∧
    ((starved.window 2).state ≠ .closed ∧ (starved.window 2).region = 10 ∧ (starved.window 2).pin = .standing ∧
      (starved.window 2).first ≤ 20 ∧ 20 ≤ (starved.window 2).last ∧ 2 * (starved.region 10).rpp ≤ 20 ∧
      20 < (2 + 1) * (starved.region 10).rpp) ∧
    (starved.region 10).pinPolicy = .holdWriter ∧
    (starved.setRegion 10 (region10 .breakPin 40 16) |>.region 10).pinPolicy = .breakPin := by decide +kernel

theorem witness_CompletionsCountAndStop :
    let at_ := fun committed : Nat => (run.setRegion 3 (region3 committed)).region 3
    ((at_ 10).capturing = true ∧ (at_ 10).state = .triggered ∧ (at_ 10).trigger = some ⟨6, .marker⟩ ∧
      6 + (at_ 10).postCount = (at_ 10).committed + 1) ∧
    ((at_ 281474976710654).capturing = true ∧ 6 + (at_ 281474976710654).postCount ≠ (at_ 281474976710654).committed + 1 ∧
      (at_ 281474976710654).committed + 1 = 281474976710655) ∧
    ((at_ 9).capturing = true ∧ 6 + (at_ 9).postCount ≠ (at_ 9).committed + 1 ∧ (at_ 9).committed + 1 ≠ 281474976710655) ∧
    (run.setRegion 3 { region3 10 with state := .faulted } |>.region 3).state = .faulted := by decide +kernel

theorem witness_StopLeavesTheRegionStopped :
    (capture3.port 1).claim = none ∧ (starved.port 0).claim = some ⟨5, .pinHold, some ⟨2, 2⟩, some 122⟩ ∧
    (starved.setPort 0 { Port.reset with claim := some ⟨2, .directoryWrite, none, some 43⟩ } |>.port 0).claim =
      some ⟨2, .directoryWrite, none, some 43⟩ ∧ ClaimStage.directoryWrite ≠ .pinHold ∧
    (capture3.region 3).boundPort = some 1 ∧ (capture3.region 3).boundPort ≠ some 0 ∧
    (capture3.region 3).eventMask.getLsbD 1 = false := by decide +kernel

theorem witness_RecordWriteStoresTheRecord :
    capture3.store.port = some (.recordWrite 1 ⟨3, 40, 2560, [1, 2]⟩) ∧ 40 < 16384 ∧ 2560 + [1, 2].length ≤ 4096 := by
  decide +kernel

/-- A directory read of region 4 with slot 3 of its page at a value, on the store port. -/
def reading (high low : Byte) (state : RegionState) (cache : Cache) : State :=
  working (.directory (.read 4 3 (.window 1))) (({ run with cache := cache }.setStore
    { run.store with memory := Memory.write [] 16390 [high, low] }).setRegion 4 { region4 with state := state })

theorem witness_DirectoryReadAnswersTheRequester :
    (reading 0 16 .armed fullCache).store.port = some (.directory (.read 4 3 (.window 1))) ∧ 3 < 2048 ∧
    (reading 0 16 .armed fullCache).cache.distinct ∧
    (worseOutcome (wordError [] (4 * 512 + 3 / 4)) .clean ≠ .uncorrectable ∧
      (Memory.read (reading 0 16 .armed fullCache).store.memory (4 * 4096 + 2 * 3)).toNat * 256 +
        (Memory.read (reading 0 16 .armed fullCache).store.memory (4 * 4096 + 2 * 3 + 1)).toNat = 16) ∧
    ((reading 0 16 .armed fullCache).region 4).capturing = true ∧ ((reading 0 16 .stopped fullCache).region 4).state = .stopped ∧
    (∀ i e, fullCache.entries.get i = some e → ¬(e.region = 4 ∧ e.slot = 3)) ∧
    (¬(((reading 0 16 .faulted fullCache).region 4).capturing = true ∨
      ((reading 0 16 .faulted fullCache).region 4).state = .stopped)) ∧
    (Memory.read (reading 63 255 .armed fullCache).store.memory (4 * 4096 + 2 * 3)).toNat * 256 +
        (Memory.read (reading 63 255 .armed fullCache).store.memory (4 * 4096 + 2 * 3 + 1)).toNat = 16383 ∧
    (Memory.read (reading 0 15 .armed fullCache).store.memory (4 * 4096 + 2 * 3)).toNat * 256 +
        (Memory.read (reading 0 15 .armed fullCache).store.memory (4 * 4096 + 2 * 3 + 1)).toNat < 16 ∧
    (Cache.reset.entries.set 5 (some ⟨4, 3, 43⟩)).get 5 = some ⟨4, 3, 43⟩ ∧
    (worseOutcome (wordError [(2048, .uncorrectable)] (4 * 512 + 3 / 4)) .clean = .uncorrectable ∧
      worseOutcome (wordError [(2048, .corrected)] (4 * 512 + 3 / 4)) .clean = .corrected) ∧
    ((⟨.clean, some 0x000100020003002B⟩ : WordRead).escaped = some 0x000100020003002B ∧
      (0x000100020003002B : Word).toNat / 2 ^ (48 - 16 * (3 % 4)) % 65536 = 43 ∧
      16383 < (0x000100020003FFFF : Word).toNat / 2 ^ (48 - 16 * (3 % 4)) % 65536) := by
  refine ⟨rfl, by decide, fullCache_distinct, by decide +kernel, by decide +kernel, by decide +kernel, ?_, by decide +kernel,
    by decide +kernel, by decide +kernel, by decide +kernel⟩
  intro i e he
  rw [fullCache_entries] at he
  cases he
  exact fun h => absurd (show (9 : RegionId) = 4 from h.1) (by decide)

/-- A window with a fetch at stage LOOKUP, with an end cause or none. -/
def lookingUp (cause : Option EndCause) : State :=
  pinned.setWindow 2 { window2 with fetch := some { fetch2 4 with stage := .lookup, endCause := cause } }

theorem witness_LookupAnswersAreTaken :
    let s := starved.setPort 0 { Port.reset with
      binding := some 10, writer := .running, claim := some ⟨5, .directoryRead, some ⟨2, 2⟩, none⟩ }
    ((s.port 0).writer = .running ∧ (s.port 0).claim = some ⟨5, .directoryRead, some ⟨2, 2⟩, none⟩) ∧
    (run.port 0).writer = .idle ∧
    (((lookingUp none).window 2).fetch = some { fetch2 4 with stage := .lookup } ∧
      ((lookingUp none).region ((lookingUp none).window 2).region).params = some ⟨9, 4, 1, 1000, .holdWriter, 0⟩) ∧
    ((lookingUp (some .close)).window 2).fetch = some { fetch2 4 with stage := .lookup, endCause := some .close } := by
  decide +kernel

/-- A directory write of page 43 into slot 2 of region 4 on the store port, the writer of port 2 in a condition. -/
def writing (condition : WriterCondition) : State :=
  working (.directory (.write 4 2 43 2)) ((writer4 { region4 with committed := 8 } none).setPort 2 { Port.reset with
    binding := some 4, staging := [⟨[7], false⟩], writer := condition, claim := some ⟨2, .directoryWrite, none, some 43⟩ })

theorem witness_DirectoryWriteStoresTheSlot :
    (writing .running).store.port = some (.directory (.write 4 2 43 2)) ∧ 2 < 2048 ∧ 43 < 65536 ∧
    (worseOutcome (wordError [] (4 * 512 + 2 / 4)) .clean ≠ .uncorrectable ∧ goodRead.escaped = none) ∧
    ((⟨.corrected, some 7⟩ : WordRead).escaped = some 7 ∧ worseOutcome .corrected .corrected ≠ .uncorrectable) ∧
    worseOutcome (wordError [(2048, .uncorrectable)] (4 * 512 + 2 / 4)) .clean = .uncorrectable ∧
    (((writing .running).port 2).writer = .running ∧
      ((writing .running).port 2).claim = some ⟨2, .directoryWrite, none, some 43⟩) ∧
    ((writing .idle).port 2).writer ≠ .running := by decide +kernel

theorem witness_FaultCascade :
    (run.setRegion 3 { region3 10 with state := .faulted } |>.region 3).state = .faulted ∧
    (capture3.region 3).capturing = true ∧
    (capture3.setRegion 3 { region3 10 with state := .stopped } |>.region 3).state = .stopped ∧
    (capture3.region 3).boundPort = some 1 ∧ (capture3.region 3).boundPort ≠ some 2 ∧
    (((lookingUp none).window 2).fetch = some { fetch2 4 with stage := .lookup } ∧ ((lookingUp none).window 2).region = 10) ∧
    ((lookingUp none).window 0).fetch = none ∧ ((lookingUp (some .close)).window 2).fetch ≠ none ∧
    (capture3.region 3).eventMask.getLsbD 4 = false ∧ (capture3.region 3).eventMask.getLsbD 1 = false := by decide +kernel

theorem witness_FetchLooksUpTheNextRecord :
    let cached := { pinned with cache := { Cache.reset with entries := Cache.reset.entries.set 5 (some ⟨10, 2, 122⟩) } }
    (pinned.region (pinned.window 2).region).params = some ⟨9, 4, 1, 1000, .holdWriter, 0⟩ ∧
    ((region3 0).wrapLength = none) ∧ (20 / (4096 / 2 ^ 9) = 2 ∧ 7 / (4096 / 2 ^ 9) < 1) ∧
    ((pinned.region 10).wrapLength = some 3 ∧ 1 ≤ 2 ∧ 2 = 1 + (2 - 1) % 3) ∧
    (∃ t, lookupSlot 10 2 (.window 2) cached = (some 122, t)) ∧ ∃ t, lookupSlot 10 2 (.window 2) pinned = (none, t) := by
  refine ⟨by decide +kernel, by decide +kernel, by decide +kernel, by decide +kernel, ⟨_, rfl⟩, _, rfl⟩

/-- A record read of window 2's fetch on the store port. -/
def readingRecord (policy : PinPolicy) (committed oldest gathered : Nat) (cause : Option EndCause) : State :=
  working (.recordRead 2 ⟨122, 3584, 512⟩) ((run.setRegion 10 (region10 policy committed oldest)).setWindow 2
    { window2 with fetch := some { fetch2 gathered with endCause := cause } })

theorem witness_RecordReadCompletes :
    (readingRecord .breakPin 40 24 3 none).store.port = some (.recordRead 2 ⟨122, 3584, 512⟩) ∧ 122 < 16384 ∧
    3584 + 512 ≤ 4096 ∧ ((readingRecord .breakPin 40 24 3 none).window 2).fetch = some (fetch2 3) ∧
    ((readingRecord .breakPin 40 24 3 (some .close)).window 2).fetch = some { fetch2 3 with endCause := some .close } ∧
    (fetch2 3).endCause = none ∧
    (63 < 512 / 8 ∧ worseOutcome (wordError [] (62912 + 63)) (wordOutcomeAt [(63, .uncorrectable)] 63) = .uncorrectable) ∧
    worseOutcome (wordError [(62975, .uncorrectable)] ((122 * 4096 + 3584) / 8 + 63)) (wordOutcomeAt [] 63) = .uncorrectable ∧
    (¬∃ i, i < 512 / 8 ∧ worseOutcome (wordError [] (62912 + i)) (wordOutcomeAt [] i) = .uncorrectable) ∧
    (let g := (readingRecord .breakPin 40 24 3 none).region 10
     g.anchor * g.rpp ≤ (fetch2 3).current ∧ (fetch2 3).current < g.oldest) ∧
    (let g := (readingRecord .breakPin 40 16 7 none).region 10
     ¬(g.anchor * g.rpp ≤ (fetch2 7).current ∧ (fetch2 7).current < g.oldest)) ∧
    (fetch2 7).total ≤ (fetch2 7).gathered.length + 1 ∧
    (let g := (readingRecord .breakPin 40 16 6 none).region 10
     (fetch2 6).gathered.length + 1 < (fetch2 6).total ∧
       ¬(g.anchor * g.rpp ≤ (fetch2 6).current ∧ (fetch2 6).current < g.oldest)) := by
  refine ⟨rfl, by decide, by decide, rfl, rfl, rfl, by decide, by decide, ?_, by decide +kernel, by decide +kernel, by decide,
    by decide +kernel⟩
  simp [wordOutcomeAt, wordError, worseOutcome]

theorem witness_FetchEnds :
    (pinned.window 2).state ≠ .closing ∧ pinned.device ≠ .restarting ∧
    (restarting.device = .restarting ∧ (restarting.window 2).closeTag = none) ∧
    ({ window2 with state := .closing, closeTag := some ⟨9, false⟩ }.state = .closing ∧
      { window2 with state := .closing, closeTag := some ⟨9, false⟩ }.closeTag = some ⟨9, false⟩) := by decide +kernel

theorem witness_SuspectMarksAndPinEnds :
    (tableEntry (walk 21 1 false []).alloc.table 21 = .owned 2 false) ∧ tableEntry run.alloc.table 21 = .free ∧
    tableEntry [(21, .retired)] 21 = .retired ∧ (pinned.region 4).boundPort = none ∧
    ((pinned.region 10).boundPort = some 0 ∧ (pinned.port 0).writer ≠ .starved) ∧
    ((starved.region 10).boundPort = some 0 ∧ (starved.port 0).writer = .starved ∧
      (starved.port 0).claim = some ⟨5, .pinHold, some ⟨2, 2⟩, some 122⟩) := by decide +kernel

theorem witness_ReleaseWalkTakesOnePage :
    (walk 57 2 false []).alloc.scanner = .releaseWalk 2 57 2 0 0x22 false ∧
    (walk 16383 3 true []).alloc.scanner = .releaseWalk 2 16383 3 0 0x22 false ∧
    (∀ flag, tableEntry (walk 16383 3 true []).alloc.table 16383 ≠ .owned 2 flag) ∧
    tableEntry (walk 21 1 false []).alloc.table 21 = .owned 2 false ∧
    tableEntry (walk 57 2 false []).alloc.table 57 = .owned 2 true ∧
    (walk 57 2 false []).alloc.retiredList.length < 512 ∧ 512 ≤ fullList.alloc.retiredList.length := by decide +kernel

theorem witness_RestartWalkBeginsAndSteps :
    let at_ := fun page => { restarting with alloc := { (walk page 0 false []).alloc with scanner := .restartWalk page } }
    (restarting.device = .restarting ∧ restarting.alloc.scanner = .idle ∧ restarting.store.port = none ∧
      restarting.store.directoryOps = [] ∧ (∀ p, restarting.store.writes.get p = none) ∧
      ∀ w, restarting.store.reads.get w = none) ∧
    run.device ≠ .restarting ∧ (working (.sweepStep 0) restarting).store.port ≠ none ∧
    ((at_ 16382).alloc.scanner = .restartWalk 16382 ∧ 16382 + 1 < 16384 ∧ tableEntry (at_ 16382).alloc.table 16382 = .free) ∧
    tableEntry (at_ 21).alloc.table 21 = .owned 2 false ∧ tableEntry (at_ 57).alloc.table 57 = .owned 2 true ∧
    (at_ 57).alloc.retiredList.length < 512 ∧
    (let full := { at_ 57 with alloc := { (at_ 57).alloc with retiredList := fullList.alloc.retiredList } }
     full.alloc.scanner = .restartWalk 57 ∧ tableEntry full.alloc.table 57 = .owned 2 true ∧
       512 ≤ full.alloc.retiredList.length) := by decide +kernel

theorem witness_RestartCompletes :
    let at_ := fun (table : List (Nat × PageEntry)) (listed : List RetiredEntry) => { restarting with
      alloc := { restarting.alloc with scanner := .restartWalk 16383, table := table, retiredList := listed } }
    let s := at_ [] []
    let suspect := fun listed => at_ [(16383, .owned 2 true)] listed
    (s.alloc.scanner = .restartWalk 16383 ∧ s.restart = some ⟨0x42, false⟩ ∧ (s.region 0).state = .unused ∧
      (s.setRegion 0 (region3 10) |>.region 0).state ≠ .unused ∧ 16382 ≠ 16383 ∧ tableEntry s.alloc.table 16383 = .free) ∧
    ((at_ [(16383, .owned 2 false)] []).alloc.scanner = .restartWalk 16383 ∧
      tableEntry (at_ [(16383, .owned 2 false)] []).alloc.table 16383 = .owned 2 false) ∧
    ((suspect []).alloc.scanner = .restartWalk 16383 ∧ tableEntry (suspect []).alloc.table 16383 = .owned 2 true ∧
      (suspect []).alloc.retiredList.length < 512) ∧
    512 ≤ (suspect fullList.alloc.retiredList).alloc.retiredList.length := by decide +kernel

theorem witness_BytesAreTakenByPhase :
    (Instr.characterTaken 0xA5 true = .characterTaken 0xA5 true ∧ Instr.frameReceived 0xA5 = .frameReceived 0xA5) ∧
    run.link.kept = [] ∧ (0xA4 : Byte) ≠ 0xA5 ∧ [(0xA5 : Byte)].length = 1 ∧
    (let kept : List Byte := [0xA5, 0]
     kept.length = 2 ∧ 2 ≤ (kept.getD 1 0).toNat * 256 + (2 : Byte).toNat ∧
       (kept.getD 1 0).toNat * 256 + (64 : Byte).toNat ≤ 64 ∧ (kept.getD 1 0).toNat * 256 + (1 : Byte).toNat < 2 ∧
       64 < (kept.getD 1 0).toNat * 256 + (65 : Byte).toNat) ∧
    (3 ≤ [(0xA5 : Byte), 0, 2].length ∧ [(0xA5 : Byte), 0, 2, 1, 7].length ≤ 3 + 2) ∧
    (identifyFrame.length = 4 + 2 ∧ (identifyFrame.getD 1 0).toNat * 256 + (identifyFrame.getD 2 0).toNat = 2 ∧
      (frameCheck ((identifyFrame.drop 1).take (2 + 2))).toNat ≠ (identifyFrame.getD (3 + 2) 0).toNat * 256 + (0 : Byte).toNat) := by
  decide +kernel

theorem witness_ValidFramesAreAccepted :
    identifyFrame.length = 4 + 2 ∧ (identifyFrame.getD 1 0).toNat * 256 + (identifyFrame.getD 2 0).toNat = 2 ∧
    (frameCheck ((identifyFrame.drop 1).take (2 + 2))).toNat =
      (identifyFrame.getD (3 + 2) 0).toNat * 256 + (0x76 : Byte).toNat ∧
    run.link.state = .active ∧ State.reset.link.state = .quiet ∧ (run.device = .run ∧ ¬∃ e ∈ run.events.entries, e.key = .ready) ∧
    State.reset.device ≠ .run := by decide +kernel

theorem witness_TimeoutsAndBreaksDropFrames :
    ([(0xA5 : Byte)] ≠ [] ∧ [(0xA5 : Byte), 0, 2, 1].length ≤ 4) ∧ 5 ≤ [(0xA5 : Byte), 0, 2, 1, 7].length ∧
    State.reset.link.state = .quiet ∧ run.link.state = .active ∧
    (walk 21 1 false []).alloc.scanner = .releaseWalk 2 21 1 0 0x22 false ∧
    ∀ r page n m tag stale, run.alloc.scanner ≠ .releaseWalk r page n m tag stale :=
  ⟨by decide, by decide, by decide, by decide, by decide +kernel, by intro _ _ _ _ _ _ h; cases h⟩

theorem witness_DispatchTurnsRequestsAway :
    Takes (asked 0x06 7 [] run) 0x06 7 [] [] ∧ Takes (asked 0x11 7 [] run) 0x11 7 [] [] ∧
    ((Instr.arm 7 []).request = some ⟨0x11, 7, []⟩ ∧ ([] : List Byte).length ≠ 1) ∧
    (Takes (asked 0x11 7 [0] State.reset) 0x11 7 [0] [] ∧ State.reset.device = .init ∧ (0x11 : Byte) ≠ 0x01) :=
  ⟨⟨rfl, rfl⟩, ⟨rfl, rfl⟩, ⟨rfl, by decide⟩, ⟨rfl, rfl⟩, rfl, by decide⟩

theorem witness_NumbersOutOfRangeAreBadArguments :
    ((Instr.arm 7 [16]).request = some ⟨0x11, 7, [16]⟩ ∧ Requested (asked 0x11 7 [16] run) 0x11 7 [16] [] ∧
      16 ≤ (16 : Byte).toNat) ∧
    ((Instr.closeWindow 7 [4]).request = some ⟨0x32, 7, [4]⟩ ∧ Requested (asked 0x32 7 [4] run) 0x32 7 [4] [] ∧
      4 ≤ (4 : Byte).toNat) :=
  ⟨⟨rfl, requested _ _ _ _ rfl rfl, by decide⟩, rfl, requested _ _ _ _ rfl rfl, by decide⟩

theorem witness_DeviceReadsAnswer :
    Takes (asked 0x01 7 [] State.reset) 0x01 7 [] [] ∧ Takes (asked 0x02 7 [] run) 0x02 7 [] [] ∧
    (0 < 65536 ∧ Requested (asked 0x05 7 (beBytes 2 0) run) 0x05 7 (beBytes 2 0) [] ∧ 0 ≤ run.alloc.retiredList.length) ∧
    (Requested (asked 0x05 7 (beBytes 2 1) run) 0x05 7 (beBytes 2 1) [] ∧ run.alloc.retiredList.length < 1) :=
  ⟨⟨rfl, rfl⟩, ⟨rfl, rfl⟩, ⟨by decide, requested _ _ _ _ rfl rfl, by decide⟩, requested _ _ _ _ rfl rfl, by decide⟩

theorem witness_RestartBegins :
    Requested (asked 0x03 7 [] (walk 21 1 false [])) 0x03 7 [] [] ∧
    (walk 21 1 false []).alloc.scanner = .releaseWalk 2 21 1 0 0x22 false ∧
    (Requested (asked 0x03 7 [] pinned) 0x03 7 [] [] ∧ (pinned.window 2).fetch = none ∧ (pinned.window 2).state = .opened) ∧
    (pinned.window 0).state ≠ .opened ∧ ((lookingUp none).window 2).fetch = some { fetch2 4 with stage := .lookup } :=
  ⟨requested _ _ _ _ rfl rfl, by decide +kernel, ⟨requested _ _ _ _ rfl rfl, by decide +kernel⟩, by decide +kernel⟩

theorem witness_SettingsTakeEffect :
    (Requested (asked 0x04 7 (beBytes 2 16368) run) 0x04 7 (beBytes 2 16368) [] ∧ 16368 < 65536 ∧ 16368 ≤ 16368) ∧
    (Requested (asked 0x04 7 (beBytes 2 16369) run) 0x04 7 (beBytes 2 16369) [] ∧ 16368 < 16369) ∧
    (Requested (asked 0x16 7 [15, 31] run) 0x16 7 [15, 31] [] ∧ (15 : Byte).toNat = (15 : RegionId).val ∧
      (31 : Byte).toNat < 32 ∧ 32 ≤ (32 : Byte).toNat) :=
  ⟨⟨requested _ _ _ _ rfl rfl, by decide⟩, ⟨requested _ _ _ _ rfl rfl, by decide⟩, requested _ _ _ _ rfl rfl, by decide⟩

/-- A DEFINE body of region 3 with a size code, quota and anchor. -/
def defineOf (c : Byte) (quota anchor : Nat) : List Byte :=
  [3, c] ++ beBytes 2 quota ++ beBytes 2 anchor ++ beBytes 4 1 ++ [1] ++ beBytes 3 0

theorem witness_DefineSetsTheParameters :
    (Requested (asked 0x10 7 (defineOf 12 2048 2046) run) 0x10 7 (defineOf 12 2048 2046) [] ∧ (run.region 3).state = .unused ∧
      (4 ≤ (12 : Byte).toNat ∧ (12 : Byte).toNat ≤ 12 ∧ 2 ≤ 2048 ∧ 2048 ≤ 2048 ∧ 2046 + 2 ≤ 2048 ∧ 1 ≤ 1 ∧
        ((1 : Byte) = 0 ∨ (1 : Byte) = 1))) ∧
    (Requested (asked 0x10 7 (defineOf 13 2 0) run) 0x10 7 (defineOf 13 2 0) [] ∧ ¬(13 : Byte).toNat ≤ 12) ∧
    (Requested (asked 0x10 7 (defineOf 4 2 0) capture3) 0x10 7 (defineOf 4 2 0) [] ∧
      ¬((capture3.region 3).state = .unused ∨ (capture3.region 3).state = .idle)) :=
  ⟨⟨requested _ _ _ _ rfl rfl, by decide +kernel⟩, ⟨requested _ _ _ _ rfl rfl, by decide⟩,
    requested _ _ _ _ rfl rfl, by decide +kernel⟩

/-- Region 4 as defined, with the pool of `run` and a reserved total. -/
def arming (g : Region) (reserved : Nat) : State :=
  let s := run.setRegion 4 g
  { s with alloc := { s.alloc with reservedTotal := reserved } }

theorem witness_ArmStartsTheCapture :
    (Requested (asked 0x11 7 [4] (arming region4 1)) 0x11 7 [4] [] ∧ (4 : Byte).toNat = (4 : RegionId).val ∧
      ((arming region4 1).region 4).state = .idle ∧ ((arming region4 1).region 4).suspect = false ∧
      ((arming region4 1).region 4).anchor + 2 ≤ (arming region4 1).alloc.available ∧
      ((arming region4 1).region 4).boundPort = some 2) ∧
    ((arming { region4 with boundPort := none } 1).region 4).boundPort = none ∧
    ((arming { region4 with state := .stopped } 1).region 4).state ≠ .idle ∧
    ((arming { region4 with suspect := true } 1).region 4).suspect = true ∧
    (arming region4 2).alloc.available < ((arming region4 2).region 4).anchor + 2 :=
  ⟨⟨requested _ _ _ _ rfl rfl, by decide +kernel⟩, by decide +kernel⟩

theorem witness_TriggerNamesTheRecord :
    Requested (asked 0x12 7 [3] capture3) 0x12 7 [3] [] ∧ (3 : Byte).toNat = (3 : RegionId).val ∧
    (run.setRegion 3 { region3 0 with state := .armed, trigger := none } |>.region 3).state = .armed ∧
    ((capture3.region 3).state = .triggered ∧ (capture3.region 3).trigger = some ⟨6, .marker⟩) ∧
    (run.region 3).capturing = false :=
  ⟨requested _ _ _ _ rfl rfl, by decide +kernel⟩

theorem witness_StopEndsTheCapture :
    Requested (asked 0x13 7 [3] capture3) 0x13 7 [3] [] ∧ (3 : Byte).toNat = (3 : RegionId).val ∧
    (capture3.region 3).capturing = true ∧
    (capture3.setRegion 3 { region3 10 with state := .stopped } |>.region 3).state = .stopped ∧
    ((run.region 3).capturing = false ∧ (run.region 3).state ≠ .stopped) :=
  ⟨requested _ _ _ _ rfl rfl, by decide +kernel⟩

theorem witness_ReleaseStartsTheWalk :
    let stopped := run.setRegion 3 { region3 11 with state := .stopped }
    Requested (asked 0x14 7 [3] stopped) 0x14 7 [3] [] ∧ (3 : Byte).toNat = (3 : RegionId).val ∧
    (stopped.region 3).state = .stopped ∧ (∀ w, ¬((stopped.window w).state ≠ .closed ∧ (stopped.window w).region = 3)) ∧
    ((stopped.port 1).inFlight = none ∧ (stopped.port 1).claim = none ∧ stopped.alloc.scanner = .idle) ∧
    ((pinned.window 2).state ≠ .closed ∧ (pinned.window 2).region = 10) ∧
    ((capture3.region 3).boundPort = some 1 ∧ (capture3.port 1).inFlight.isSome = true) ∧
    (walk 21 1 false []).alloc.scanner = .releaseWalk 2 21 1 0 0x22 false ∧ ((walk 21 1 false []).region 2).state = .releasing ∧
    (run.setRegion 4 region4 |>.region 4).state = .idle ∧ (run.region 3).state = .unused :=
  ⟨requested _ _ _ _ rfl rfl, by decide +kernel⟩

theorem witness_QueriesAnswer :
    ((region3 0).params = some ⟨8, 8, 2, 5, .holdWriter, 4⟩) ∧
    (Requested (asked 0x15 7 [15] capture3) 0x15 7 [15] [] ∧ (15 : Byte).toNat = (15 : RegionId).val) ∧
    (Requested (asked 0x21 7 [3] capture3) 0x21 7 [3] [] ∧ (3 : Byte).toNat = (3 : PortId).val) ∧
    (Requested (asked 0x33 7 [0] pinned) 0x33 7 [0] [] ∧ (0 : Byte).toNat = (0 : WindowId).val) :=
  ⟨rfl, ⟨requested _ _ _ _ rfl rfl, by decide⟩, ⟨requested _ _ _ _ rfl rfl, by decide⟩, requested _ _ _ _ rfl rfl, by decide⟩

theorem witness_BindMovesThePort :
    let target := run.setRegion 4 { region4 with boundPort := none }
    (Requested (asked 0x20 7 [0, 4, 3] target) 0x20 7 [0, 4, 3] [] ∧ (0 : Byte).toNat = (0 : PortId).val ∧
      (4 : Byte).toNat = (4 : RegionId).val ∧ (3 : Byte).toNat < 4 ∧ (target.port 0).binding = none ∧
      (target.region 4).state = .idle ∧ (target.region 4).boundPort = none ∧ (target.port 0).inFlight = none ∧
      (target.port 0).claim = none) ∧
    (16 ≤ (16 : Byte).toNat ∧ (16 : Byte) ≠ 0xFF ∧ 4 ≤ (4 : Byte).toNat) ∧
    ((capture3.port 1).binding = some 3 ∧ (capture3.region 3).capturing = true) ∧ (run.region 4).state = .unused ∧
    ((run.setRegion 4 region4 |>.region 4).boundPort = some 2 ∧ (2 : PortId) ≠ 0) ∧
    (capture3.port 1).inFlight.isSome = true :=
  ⟨⟨requested _ _ _ _ rfl rfl, by decide +kernel⟩, by decide +kernel⟩

/-- An OPEN body of window 2 and region 10. -/
def openOf (first last : Nat) (pin : Byte) : List Byte := [2, 10] ++ beBytes 6 first ++ beBytes 6 last ++ [pin]

theorem witness_OpenSetsTheWindow :
    let s := run.setRegion 10 (region10 .breakPin 41 24)
    let at_ := fun g : RegionState => (s.setRegion 10 { region10 .breakPin 41 24 with state := g } |>.region 10)
    (Requested (asked 0x30 7 (openOf 24 40 1) s) 0x30 7 (openOf 24 40 1) [] ∧ 40 < 281474976710656 ∧
      (10 : Byte).toNat = (10 : RegionId).val ∧ (2 : Byte).toNat = (2 : WindowId).val ∧ (1 : Byte).toNat < 2 ∧
      (s.window 2).state = .closed ∧ (s.region 10).capturing = true ∧ 24 ≤ 40 ∧ ¬(s.region 10).committed ≤ 40 ∧
      (s.region 10).oldest = 24) ∧
    (16 ≤ (16 : Byte).toNat ∧ 4 ≤ (4 : Byte).toNat ∧ 2 ≤ (2 : Byte).toNat) ∧ (pinned.window 2).state ≠ .closed ∧
    (at_ .faulted).state = .faulted ∧ ((at_ .idle).capturing = false ∧ (at_ .idle).state ≠ .stopped) ∧
    ((at_ .stopped).state = .stopped) ∧ 23 < 24 ∧
    (20 ≤ 23 ∧ 23 ≤ 27 ∧ 23 < (s.region 10).committed ∧ (s.region 10).anchor * (s.region 10).rpp ≤ 23 ∧
      23 < (s.region 10).oldest) ∧ (s.region 10).committed ≤ 41 :=
  ⟨⟨requested _ _ _ _ rfl rfl, by decide +kernel⟩, by decide +kernel⟩

theorem witness_FetchGathersTheLeastOfFive :
    let at_ := fun k : Nat => (pinned.setWindow 2 { window2 with cursor := k } |>.window 2)
    let g := pinned.region 10
    (Requested (asked 0x31 7 ([2] ++ beBytes 2 256) pinned) 0x31 7 ([2] ++ beBytes 2 256) [] ∧ (2 : Byte).toNat = (2 : WindowId).val ∧
      256 < 65536 ∧ (pinned.window 2).state ≠ .closed ∧ (pinned.window 2).fetch = none ∧ 1 ≤ 256 ∧ 256 ≤ 256 ∧
      (pinned.region (pinned.window 2).region).state ≠ .faulted ∧ (pinned.window 2).cursor ≤ (pinned.window 2).last ∧
      (pinned.window 2).cursor < g.committed ∧ g.oldest ≤ (pinned.window 2).cursor ∧
      (8 ≤ 256 ∧ 8 ≤ g.rpp ∧ 20 + 8 ≤ (pinned.window 2).last + 1 ∧ 20 + 8 ≤ g.committed) ∧ 8 = g.rpp) ∧
    (run.window 2).state = .closed ∧ ((lookingUp none).window 2).fetch.isSome = true ∧ 256 < 257 ∧
    (run.setRegion 3 { region3 0 with state := .faulted } |>.region 3).state = .faulted ∧ (at_ 28).last < (at_ 28).cursor ∧
    (g.committed ≤ (run.setWindow 2 { window2 with cursor := 38, last := 50 } |>.window 2).cursor ∧ g.capturing = true) ∧
    ({ region10 .breakPin 38 16 with state := .stopped }.capturing = false) ∧
    (¬((at_ 15).cursor < g.anchor * g.rpp ∨ g.oldest ≤ (at_ 15).cursor)) ∧
    ((at_ 7).cursor < g.anchor * g.rpp ∧ g.oldest ≠ g.anchor * g.rpp) :=
  ⟨⟨requested _ _ _ _ rfl rfl, by decide +kernel⟩, by decide +kernel⟩

theorem witness_CloseEndsTheWindow :
    (Requested (asked 0x32 7 [2] starved) 0x32 7 [2] [] ∧ (2 : Byte).toNat = (2 : WindowId).val ∧
      (starved.window 2).state = .opened ∧ (starved.window 2).fetch = none) ∧
    ((lookingUp none).window 2).fetch = some { fetch2 4 with stage := .lookup } ∧ (run.window 2).state = .closed ∧
    (after (.closeWindow 7 [2]) (asked 0x32 7 [2] (lookingUp none)) |>.window 2).state = .closing :=
  ⟨⟨requested _ _ _ _ rfl rfl, by decide +kernel⟩, by decide +kernel⟩

/-! ### The invariants hold at reset, and reset can step -/

/-- The state right after reset with a command waiting. -/
def started : State := { State.reset with pending := [.frameReceived 0xA5] }

theorem started_steps : step started = .next (after (.frameReceived 0xA5) State.reset) := by rfl

theorem witness_StepsKeepTheStoreInForm : started.memoryCanonical ∧ started.fetchWaitBounded ∧
    step started = .next (after (.frameReceived 0xA5) State.reset) :=
  ⟨⟨Memory.nil_wf, List.Pairwise.nil, by simp [started, State.reset, Store.reset]⟩, ⟨by decide, fun _ => rfl⟩, started_steps⟩

theorem witness_StepsKeepKeysDistinct : (markPending run).keysDistinct ∧ fullCache.distinct ∧
    step { markPending run with pending := [.linkBreak] } = .next (after .linkBreak (markPending run)) :=
  ⟨by unfold State.keysDistinct; decide +kernel, fullCache_distinct, rfl⟩

theorem started_sweepOnlyAtStart : started.sweepOnlyAtStart := fun _ _ _ _ _ => rfl

theorem started_walkReleasing : started.walkReleasing := by intro _ _ _ _ _ _ h; cases h

theorem witness_StepsKeepPagesInOnePlace : started.threePlaces ∧
    step started = .next (after (.frameReceived 0xA5) State.reset) :=
  ⟨⟨started_sweepOnlyAtStart, trivial, by intro h; cases h⟩, started_steps⟩

theorem witness_StepsKeepReservationsBacked : started.reservationsSum ∧
    step started = .next (after (.frameReceived 0xA5) State.reset) :=
  ⟨⟨by decide +kernel, by decide, by decide +kernel, started_walkReleasing, started_sweepOnlyAtStart,
    fun _ => ⟨rfl, by decide +kernel, by intro _ h; cases h⟩⟩, started_steps⟩

theorem witness_StepsKeepPortAccounts : started.portAccounts ∧
    step started = .next (after (.frameReceived 0xA5) State.reset) := by
  have hport : ∀ p, started.port p = Port.reset := by decide +kernel
  have hregion : ∀ r, started.region r = Region.reset := by decide +kernel
  have hwrites : ∀ p, started.store.writes.get p = none := by decide +kernel
  refine ⟨⟨?_, started_walkReleasing, ?_, ?_, ?_, ?_, ?_, ?_, ?_⟩, started_steps⟩
  · intro p r; simp [hport, hregion, Port.reset, Region.reset]
  · intro p; rw [hport]; rfl
  · intro p h; rw [hport] at h; exact absurd rfl h
  · intro p
    rw [hport, hwrites]
    simp [Port.reset, started, State.reset, Store.reset]
  · intro p w h; cases h
  · intro p h; rw [hport] at h; exact absurd rfl h
  · intro h; cases h
  · intro _ h; cases h

theorem witness_StepsKeepOutstandingAccounts : started.outstandingAccounts ∧
    step started = .next (after (.frameReceived 0xA5) State.reset) := by
  have hwindow : ∀ w, started.window w = Window.reset := by decide +kernel
  refine ⟨⟨?_, fun _ => rfl, by decide +kernel, by decide⟩, started_steps⟩
  intro w
  rw [hwindow]
  simp [Window.coherent, Window.reset]

end Sys2Proof.Tests
end

section
/-! SUPPORT. What every command but HARD_RESET keeps from the state it is taken in: the queue of waiting commands, the counter of
free draws, and two invariants of the store controller, the canonical form of its words (R1, R2) and the bound of the fetch-wait
count (R14). One lemma per operation that touches the store; every other operation leaves it by its frame lemma. -/

namespace Sys2Proof.Machine

/-! ### The store arbiter (R12 to R14) -/

/-- The fetch-wait count of a store is at most 8, and 0 while no record read waits (R14). -/
def Store.waitBounded (st : Store) : Prop :=
  st.fetchWait ≤ Config.fetchGuard ∧ ((∀ w, st.reads.get w = none) → st.fetchWait = 0)

theorem State.fetchWaitBounded_iff (s : State) : s.fetchWaitBounded ↔ s.store.waitBounded := Iff.rfl

/-- The count rises only while a read waits, and the guard has left it below 8. -/
theorem Store.waitCount_bounded {st : Store} (h : st.waitBounded) (hg : ¬(Config.fetchGuard ≤ st.fetchWait ∧ st.readWaits)) :
    st.waitCount ≤ Config.fetchGuard ∧ ((∀ w, st.reads.get w = none) → st.waitCount = 0) := by
  unfold Store.waitCount
  cases hr : st.readWaits with
  | false => exact h
  | true =>
    refine ⟨?_, fun hn => ?_⟩
    · simp only [hr, and_true, Nat.not_le] at hg
      exact hg
    · simp [Store.readWaits_false hn] at hr

theorem Store.grantRead_bounded {st : Store} (h : st.waitBounded) : st.grantRead.waitBounded := by
  unfold Store.grantRead
  split
  · exact h
  · split
    · exact h
    · exact ⟨Nat.zero_le _, fun _ => rfl⟩

theorem Store.grantWrite_bounded {st : Store} (h : st.waitBounded)
    (hg : ¬(Config.fetchGuard ≤ st.fetchWait ∧ st.readWaits)) : st.grantWrite.waitBounded := by
  unfold Store.grantWrite
  split
  · exact h
  · split
    · exact h
    · exact Store.waitCount_bounded h hg

/-- A grant keeps the fetch-wait count within its guard (R14). -/
theorem Store.grant_bounded {st : Store} (h : st.waitBounded) : st.grant.waitBounded := by
  unfold Store.grant
  split
  · exact h
  · split
    · exact Store.grantRead_bounded h
    · next hg =>
      split
      · exact Store.waitCount_bounded h hg
      · split
        · exact Store.grantWrite_bounded h hg
        · exact Store.grantRead_bounded h

/-! ### The relation -/

/-- What a command keeps of the state `s` it is taken in, `t` being a state it comes to. -/
structure Keeps (s t : State) : Prop where
  pending : t.pending = s.pending
  freeCount : t.freeCount = s.freeCount
  canonical : s.memoryCanonical → t.memoryCanonical
  bounded : s.fetchWaitBounded → t.fetchWaitBounded

theorem Keeps.refl (s : State) : Keeps s s := ⟨rfl, rfl, id, id⟩

variable {s₀ s t : State}

/-- An operation that leaves the store, the queue and the counter as they are keeps everything. -/
theorem Keeps.frame (h : Keeps s₀ s) (e : t.pending = s.pending ∧ t.freeCount = s.freeCount ∧ t.store = s.store) :
    Keeps s₀ t := by
  obtain ⟨hp, hf, hs⟩ := e
  refine ⟨hp.trans h.pending, hf.trans h.freeCount, fun c => ?_, fun b => ?_⟩
  · simpa only [State.memoryCanonical, hs] using h.canonical c
  · simpa only [State.fetchWaitBounded, hs] using h.bounded b

/-- An operation on the store that leaves the stored words and keeps the bound of the fetch-wait count. -/
theorem Keeps.waits {st : Store} (h : Keeps s₀ s) (hm : st.memory = s.store.memory) (he : st.errors = s.store.errors)
    (hb : s.store.waitBounded → st.waitBounded) : Keeps s₀ (s.setStore st) := by
  refine ⟨h.pending, h.freeCount, fun c => ?_, fun b => (State.fetchWaitBounded_iff _).2 (hb (h.bounded b))⟩
  simpa only [State.memoryCanonical, State.setStore_store, hm, he] using h.canonical c

/-- An operation on the stored words that keeps their canonical forms and leaves the waiting reads. -/
theorem Keeps.words {st : Store} (h : Keeps s₀ s) (hc : Memory.wf s.store.memory ∧ wordErrorsWf s.store.errors →
      Memory.wf st.memory ∧ wordErrorsWf st.errors)
    (hr : st.reads = s.store.reads) (hw : st.fetchWait = s.store.fetchWait) : Keeps s₀ (s.setStore st) := by
  refine ⟨h.pending, h.freeCount, fun c => hc (h.canonical c), fun b => ?_⟩
  simpa only [State.fetchWaitBounded, State.setStore_store, hr, hw] using h.bounded b

/-! ### The store controller's operations -/

theorem storeGrant_keeps (h : Keeps s₀ s) : Keeps s₀ (storeGrant s) :=
  h.waits (by simp) (by simp) Store.grant_bounded

theorem freePort_keeps (h : Keeps s₀ s) : Keeps s₀ (freePort s) := h.waits rfl rfl id

theorem issueWrite_keeps {p : PortId} {w : RecordWrite} (h : Keeps s₀ s) : Keeps s₀ (issueWrite p w s) := h.waits rfl rfl id

theorem issueDirectory_keeps {op : DirectoryOp} (h : Keeps s₀ s) : Keeps s₀ (issueDirectory op s) := h.waits rfl rfl id

/-- A read issued waits, so the count need not be 0. -/
theorem issueRead_keeps {w : WindowId} {r : RecordRead} (h : Keeps s₀ s) : Keeps s₀ (issueRead w r s) := by
  refine h.waits rfl rfl fun b => ⟨b.1, fun hn => ?_⟩
  simpa [vector_get_set] using hn w

theorem readWords_keeps {first count : Nat} {cells : Nat → WordOutcome} (h : Keeps s₀ s) :
    Keeps s₀ (readWords first count cells s) :=
  h.words (fun c => ⟨c.1, setWordErrors_wf c.2 _ _ _⟩) rfl rfl

theorem leaveUnreadable_keeps {n : Nat} (h : Keeps s₀ s) : Keeps s₀ (leaveUnreadable n s) :=
  h.words (fun c => ⟨c.1, setWordErrors_wf c.2 _ _ _⟩) rfl rfl

theorem storeBytes_keeps {a : Nat} {bytes : List Byte} (h : Keeps s₀ s) : Keeps s₀ (storeBytes a bytes s) :=
  h.words (fun c => ⟨Memory.write_wf c.1 _ _, setWordErrors_wf c.2 _ _ _⟩) rfl rfl

/-! ### The slot cache and the writers -/

theorem setPort_keeps {p : PortId} {q : Port} (h : Keeps s₀ s) : Keeps s₀ (s.setPort p q) := h.frame (by simp)

theorem setWindow_keeps {w : WindowId} {x : Window} (h : Keeps s₀ s) : Keeps s₀ (s.setWindow w x) := h.frame (by simp)

theorem makeReply_keeps {tag : Byte} {stale : Bool} {status : Status} {body : List Byte} (h : Keeps s₀ s) :
    Keeps s₀ (makeReply tag stale status body s) := h.frame (by simp)

theorem writeUpdate_keeps {r : RegionId} {slot page : Nat} (h : Keeps s₀ s) : Keeps s₀ (writeUpdate r slot page s) :=
  h.frame (by simp)

theorem markerReport_keeps {r : RegionId} {k : Nat} (h : Keeps s₀ s) : Keeps s₀ (markerReport r k s) := h.frame (by simp)

theorem lookupSlot_keeps {r : RegionId} {slot : Nat} {who : Requester} (h : Keeps s₀ s) :
    Keeps s₀ (lookupSlot r slot who s).2 := by
  unfold lookupSlot
  split
  · exact h.frame (by simp)
  · exact issueDirectory_keeps (h.frame (t := s.setCache s.cache.miss) (by simp))

theorem issueRecordWrite_keeps {p : PortId} {r : RegionId} {page : Nat} (h : Keeps s₀ s) :
    Keeps s₀ (issueRecordWrite p r page s) := by
  unfold issueRecordWrite
  split
  · exact h
  · dsimp only
    split
    · exact markerReport_keeps (issueWrite_keeps (setPort_keeps h))
    · exact issueWrite_keeps (setPort_keeps h)

theorem claimEnds_keeps {p : PortId} {r : RegionId} {l page : Nat} (h : Keeps s₀ s) : Keeps s₀ (claimEnds p r l page s) :=
  issueRecordWrite_keeps (setPort_keeps h)

theorem pinCheck_keeps {r : RegionId} {l : Nat} (h : Keeps s₀ s) : Keeps s₀ (pinCheck r l s).2 := h.frame (by simp)

theorem enterStarved_keeps {p : PortId} {r : RegionId} {l : Nat} {rc : Recycle} {page : Nat} {ws : List WindowId}
    (h : Keeps s₀ s) : Keeps s₀ (enterStarved p r l rc page ws s) := h.frame (by simp)

theorem recycleStep_keeps {p : PortId} {r : RegionId} {l : Nat} {rc : Recycle} {page : Nat} (h : Keeps s₀ s) :
    Keeps s₀ (recycleStep p r l rc page s) := by
  unfold recycleStep
  dsimp only
  split
  · exact claimEnds_keeps (pinCheck_keeps h)
  · exact enterStarved_keeps (pinCheck_keeps h)
  · exact pinCheck_keeps h

theorem recycleLookup_keeps {p : PortId} {r : RegionId} {l : Nat} (h : Keeps s₀ s) : Keeps s₀ (recycleLookup p r l s) := by
  unfold recycleLookup
  dsimp only
  split
  · exact recycleStep_keeps (lookupSlot_keeps h)
  · exact setPort_keeps (lookupSlot_keeps h)

theorem wrapThenRecycle_keeps {p : PortId} {r : RegionId} {l : Nat} (h : Keeps s₀ s) : Keeps s₀ (wrapThenRecycle p r l s) :=
  recycleLookup_keeps (h.frame (by simp))

theorem freshPage_keeps {p : PortId} {r : RegionId} {l page : Nat} (h : Keeps s₀ s) : Keeps s₀ (freshPage p r l page s) := by
  have hc : Keeps s₀ (countRolling r l s) := h.frame (by simp)
  exact setPort_keeps (writeUpdate_keeps (issueDirectory_keeps hc))

theorem pageClaim_keeps {p : PortId} {r : RegionId} {l : Nat} (h : Keeps s₀ s) : Keeps s₀ (pageClaim p r l s) := by
  unfold pageClaim
  dsimp only
  split
  · split
    · next hc =>
      obtain ⟨hp, hf, -, -, hs, -⟩ := claimPage_frame hc
      exact freshPage_keeps (h.frame ⟨hp, hf, hs⟩)
    · exact wrapThenRecycle_keeps h
  · exact wrapThenRecycle_keeps h

theorem takeHead_keeps {p : PortId} (h : Keeps s₀ s) : Keeps s₀ (takeHead p s) := by
  unfold takeHead
  dsimp only
  split
  · exact h
  · split
    · split
      · exact pageClaim_keeps h
      · split
        · exact issueRecordWrite_keeps h
        · exact h
    · exact h

theorem capturingNotice_keeps {p : PortId} (h : Keeps s₀ s) : Keeps s₀ (capturingNotice p s) :=
  takeHead_keeps (setPort_keeps h)

theorem pinEndNotice_keeps {r : RegionId} (h : Keeps s₀ s) : Keeps s₀ (pinEndNotice r s) := by
  unfold pinEndNotice
  split
  · exact h
  · split
    · exact recycleStep_keeps h
    · exact h

/-! ### The fetch engine -/

theorem becomeClosed_keeps {w : WindowId} (h : Keeps s₀ s) : Keeps s₀ (becomeClosed w s) := by
  unfold becomeClosed
  dsimp only
  split
  · exact pinEndNotice_keeps (setWindow_keeps h)
  · exact setWindow_keeps h

theorem closeAfterFetch_keeps {w : WindowId} (h : Keeps s₀ s) : Keeps s₀ (closeAfterFetch w s) := by
  unfold closeAfterFetch
  dsimp only
  split
  · exact makeReply_keeps (becomeClosed_keeps h)
  · exact becomeClosed_keeps h

theorem fetchEnd_keeps {w : WindowId} {f : Fetch} {status : Status} {records : List (List Byte)} (h : Keeps s₀ s) :
    Keeps s₀ (fetchEnd w f status records s) := by
  unfold fetchEnd
  dsimp only
  split
  · exact closeAfterFetch_keeps (h.frame (by simp))
  · exact h.frame (by simp)

theorem fetchEndByCause_keeps {w : WindowId} {f : Fetch} {cause : EndCause} (h : Keeps s₀ s) :
    Keeps s₀ (fetchEndByCause w f cause s) := by
  cases cause <;> exact fetchEnd_keeps h

theorem fetchRead_keeps {w : WindowId} {f : Fetch} {page : Nat} (h : Keeps s₀ s) : Keeps s₀ (fetchRead w f page s) :=
  issueRead_keeps (setWindow_keeps h)

theorem fetchNext_keeps {w : WindowId} {f : Fetch} (h : Keeps s₀ s) : Keeps s₀ (fetchNext w f s) := by
  unfold fetchNext
  dsimp only
  split
  · exact fetchRead_keeps (lookupSlot_keeps h)
  · exact setWindow_keeps (lookupSlot_keeps h)

theorem fetchAnswer_keeps {w : WindowId} {page : Option Nat} (h : Keeps s₀ s) : Keeps s₀ (fetchAnswer w page s) := by
  unfold fetchAnswer
  split
  · exact h
  · split
    · exact fetchEndByCause_keeps h
    · exact fetchRead_keeps h
    · exact fetchEndByCause_keeps h

theorem fetchRecord_keeps {w : WindowId} {f : Fetch} {bytes : List Byte} (h : Keeps s₀ s) :
    Keeps s₀ (fetchRecord w f bytes s) := by
  unfold fetchRecord
  dsimp only
  split
  · exact fetchEnd_keeps h
  · split
    · exact fetchEnd_keeps h
    · exact fetchNext_keeps h

theorem restartWindow_keeps {w : WindowId} (h : Keeps s₀ s) : Keeps s₀ (restartWindow s w) := by
  unfold restartWindow
  dsimp only
  split
  · exact setWindow_keeps h
  · split
    · exact becomeClosed_keeps h
    · exact h

end Sys2Proof.Machine
end

section
/-! SUPPORT. How every command completes: `exec_completes` says that a command other than HARD_RESET comes to a state that keeps
what `Keeps` names, or stops because its operation lies outside the store. -/

namespace Sys2Proof.Machine

variable {s₀ s : State}

/-- A command taken in `s` completes with what `Keeps` names, or stops at an operation outside the store (R1). -/
def Completes (s : State) : Result → Prop
  | .next t => Keeps s t
  | .fault r => r = .outsideStore ∧ ∃ op, s.store.port = some op ∧ op.inStore = false
  | .refused _ => False

/-- The completion of the operation on the port, which lies in the store or stops the block. -/
theorem completes_inStore {op : StoreOp} {o : Result} (hp : s.store.port = some op) (h : Completes s o) :
    Completes s (if op.inStore then o else .fault .outsideStore) := by
  split
  · exact h
  · next hi => exact ⟨rfl, op, hp, by simpa using hi⟩

/-! ### Initialization -/

theorem completeInitialization_keeps (h : Keeps s₀ s) : Keeps s₀ (completeInitialization s) := by
  have ht := h.waits (st := { s.store with
    condition := .serving, initProgress := Config.storePages, port := none, directoryOps := [],
    portPointer := 3, windowPointer := 3, fetchWait := 0 }) rfl rfl fun _ => ⟨Nat.zero_le _, fun _ => rfl⟩
  exact ht.frame (by simp [completeInitialization])

theorem reportSwept_keeps {page : Nat} {good : Bool} (h : Keeps s₀ s) : Keeps s₀ (reportSwept page good s) := by
  unfold reportSwept
  split
  · exact h.frame (by simp)
  · split
    · exact h
    · exact h.frame (by simp)

theorem sweepAdvance_keeps {page : Nat} (h : Keeps s₀ s) : Keeps s₀ (sweepAdvance page s) := by
  unfold sweepAdvance
  split
  · exact h.waits rfl rfl id
  · exact completeInitialization_keeps h

theorem execSweepStepComplete_completes (words : List (Nat × WordRead)) (s : State) :
    Completes s (execSweepStepComplete words s) := by
  unfold execSweepStepComplete
  split
  · next p hp =>
    exact completes_inStore hp (sweepAdvance_keeps (reportSwept_keeps (readWords_keeps (storeBytes_keeps (.refl s)))))
  · exact .refl s

theorem execDirectoryClearComplete_completes (s : State) : Completes s (execDirectoryClearComplete s) := by
  unfold execDirectoryClearComplete
  split
  · next p hp =>
    have ht := storeBytes_keeps (a := p * Config.pageBytes) (bytes := List.replicate Config.pageBytes 0) (.refl s)
    refine completes_inStore hp ?_
    dsimp only
    split
    · exact ht.waits rfl rfl id
    · exact completeInitialization_keeps ht
  · exact .refl s

/-! ### Records at a capture port -/

theorem stageRecord_keeps {p : PortId} {record : StagedRecord} (h : Keeps s₀ s) : Keeps s₀ (stageRecord p record s) := by
  unfold stageRecord
  dsimp only
  split
  · exact storeGrant_keeps (takeHead_keeps (setPort_keeps h))
  · exact setPort_keeps h

theorem dropFull_keeps {p : PortId} (h : Keeps s₀ s) : Keeps s₀ (dropFull p s) := by
  unfold dropFull
  dsimp only
  split <;> exact h.frame (by simp)

theorem recordArrives_keeps {p : PortId} {r : RegionId} {record : StagedRecord} {size : Nat} (h : Keeps s₀ s) :
    Keeps s₀ (recordArrives p r record size s) := by
  unfold recordArrives
  dsimp only
  split
  · exact setPort_keeps h
  · split
    · exact dropFull_keeps h
    · exact stageRecord_keeps h

theorem takePortByte_keeps {p : PortId} {data : Byte} {sor mrk : Bool} (h : Keeps s₀ s) :
    Keeps s₀ (takePortByte p data sor mrk s) := by
  unfold takePortByte
  split
  · split
    · exact setPort_keeps h
    · exact h
  · split
    · split
      · exact setPort_keeps h
      · exact h
    · split
      · exact setPort_keeps (setPort_keeps h)
      · split
        · exact recordArrives_keeps (setPort_keeps h)
        · exact setPort_keeps h

/-! ### Completions of store operations -/

theorem completionReport_keeps {r : RegionId} (h : Keeps s₀ s) : Keeps s₀ (completionReport r s) := h.frame (by simp)

theorem faultReport_keeps {r : RegionId} (h : Keeps s₀ s) : Keeps s₀ (faultReport r s) := h.frame (by simp)

theorem recordWritten_keeps {p : PortId} {w : RecordWrite} (h : Keeps s₀ s) : Keeps s₀ (recordWritten p w s) :=
  takeHead_keeps (completionReport_keeps (setPort_keeps (storeBytes_keeps (freePort_keeps h))))

theorem execRecordWriteComplete_completes (s : State) : Completes s (execRecordWriteComplete s) := by
  unfold execRecordWriteComplete
  split
  · next p w hp => exact completes_inStore hp (storeGrant_keeps (recordWritten_keeps (.refl s)))
  · exact .refl s

theorem writerAnswer_keeps {p : PortId} {r : RegionId} {page : Option Nat} (h : Keeps s₀ s) :
    Keeps s₀ (writerAnswer p r page s) := by
  unfold writerAnswer
  split
  · exact recycleStep_keeps h
  · exact setPort_keeps h

theorem answerRequester_keeps {r : RegionId} {page : Option Nat} {who : Requester} (h : Keeps s₀ s) :
    Keeps s₀ (answerRequester r page who s) := by
  cases who with
  | writer p => exact writerAnswer_keeps h
  | window w => exact fetchAnswer_keeps h

theorem fillCompletes_keeps {r : RegionId} {slot : Nat} {who : Requester} {page : Option Nat} (h : Keeps s₀ s) :
    Keeps s₀ (fillCompletes r slot who page s) := by
  cases page with
  | some v =>
    have hf : Keeps s₀ (fillPageNumber r slot v s).2 := h.frame (by simp)
    exact answerRequester_keeps hf
  | none => exact answerRequester_keeps (faultReport_keeps h)

theorem execDirectoryReadComplete_completes (word : WordRead) (s : State) :
    Completes s (execDirectoryReadComplete word s) := by
  unfold execDirectoryReadComplete
  split
  · next r slot who hp =>
    exact completes_inStore hp (storeGrant_keeps (fillCompletes_keeps (readWords_keeps (freePort_keeps (.refl s)))))
  · exact .refl s

theorem directoryWritten_keeps {p : PortId} {r : RegionId} {page : Nat} (h : Keeps s₀ s) :
    Keeps s₀ (directoryWritten p r page s) := by
  unfold directoryWritten
  split
  · exact claimEnds_keeps h
  · exact setPort_keeps h

theorem execDirectoryWriteComplete_completes (word : WordRead) (s : State) :
    Completes s (execDirectoryWriteComplete word s) := by
  unfold execDirectoryWriteComplete
  split
  · next r slot page p hp =>
    have ht := readWords_keeps (first := slotWord r slot) (count := 1) (cells := fun _ => word.outcome)
      (freePort_keeps (.refl s))
    refine completes_inStore hp ?_
    dsimp only
    split
    · exact storeGrant_keeps (directoryWritten_keeps (storeBytes_keeps ht))
    · exact storeGrant_keeps (faultReport_keeps (setPort_keeps (leaveUnreadable_keeps ht)))
  · exact .refl s

theorem recordError_keeps {w : WindowId} {page k : Nat} (h : Keeps s₀ s) : Keeps s₀ (recordError w page k s) :=
  h.frame (by simp [recordError])

theorem recordReadTaken_keeps {w : WindowId} {op : RecordRead} {uncorrectable : Bool} {bytes : List Byte} (h : Keeps s₀ s) :
    Keeps s₀ (recordReadTaken w op uncorrectable bytes s) := by
  unfold recordReadTaken
  split
  · exact h
  · next f hf =>
    have ht : Keeps s₀ (if uncorrectable then recordError w op.page f.current s else s) := by
      split
      · exact recordError_keeps h
      · exact h
    dsimp only
    split
    · exact fetchEndByCause_keeps ht
    · split
      · exact fetchEnd_keeps (recordError_keeps h)
      · exact fetchRecord_keeps h

theorem execRecordReadComplete_completes (words : List (Nat × WordOutcome)) (s : State) :
    Completes s (execRecordReadComplete words s) := by
  unfold execRecordReadComplete
  split
  · next w op hp =>
    exact completes_inStore hp (storeGrant_keeps (recordReadTaken_keeps (readWords_keeps (freePort_keeps (.refl s)))))
  · exact .refl s

/-! ### The walks -/

theorem releaseAdvance_keeps {r : RegionId} {page returned retired : Nat} {tag : Byte} {stale : Bool} (h : Keeps s₀ s) :
    Keeps s₀ (releaseAdvance r page returned retired tag stale s) := by
  unfold releaseAdvance releaseWalkEnds
  split <;> exact h.frame (by simp)

theorem execReleaseWalkStep_completes (s : State) : Completes s (execReleaseWalkStep s) := by
  unfold execReleaseWalkStep
  have h := Keeps.refl s
  split
  · split
    · split
      · split <;> exact releaseAdvance_keeps (h.frame (by simp))
      · exact releaseAdvance_keeps h
    · exact releaseAdvance_keeps h
  · exact h

theorem execRestartWalkBegin_completes (s : State) : Completes s (execRestartWalkBegin s) := by
  unfold execRestartWalkBegin
  split
  · exact (Keeps.refl s).frame (by simp [purgeAll])
  · exact .refl s

theorem restartReply_keeps (h : Keeps s₀ s) : Keeps s₀ (restartReply s) := by
  unfold restartReply
  dsimp only
  split <;> exact h.frame (by simp)

theorem restartCompletes_keeps (h : Keeps s₀ s) : Keeps s₀ (restartCompletes s) :=
  restartReply_keeps (h.frame (by simp [restartEvents]))

theorem restartExamine_keeps {page : Nat} (h : Keeps s₀ s) : Keeps s₀ (restartExamine page s) := by
  unfold restartExamine
  split
  · split <;> exact h.frame (by simp)
  · exact h

theorem execRestartWalkStep_completes (s : State) : Completes s (execRestartWalkStep s) := by
  unfold execRestartWalkStep
  split
  · next page hp =>
    have ht := restartExamine_keeps (page := page) (.refl s)
    dsimp only
    split
    · exact ht.frame (by simp)
    · exact restartCompletes_keeps ht
  · exact .refl s

/-! ### The host link's line -/

theorem raiseLinkError_keeps {cause : LinkErrorCause} {tag : Option Byte} (h : Keeps s₀ s) :
    Keeps s₀ (raiseLinkError cause tag s) := h.frame (by simp [raiseLinkError])

theorem setKept_keeps {kept : List Byte} (h : Keeps s₀ s) : Keeps s₀ (s.setKept kept) := h.frame ⟨rfl, rfl, rfl⟩

theorem activateLink_keeps (h : Keeps s₀ s) : Keeps s₀ (activateLink s) := by
  unfold activateLink
  dsimp only
  split
  · split <;> exact h.frame (by simp)
  · exact h

theorem acceptFrame_keeps {q : Request} (h : Keeps s₀ s) : Keeps s₀ (acceptFrame q s) := by
  unfold acceptFrame
  split
  · exact h.frame (by simp)
  · exact raiseLinkError_keeps h

theorem receiveBytes_keeps {steps : Nat} {bytes : List Byte} (h : Keeps s₀ s) : Keeps s₀ (receiveBytes steps bytes s) := by
  induction steps generalizing bytes s with
  | zero => exact h
  | succ steps ih =>
    cases bytes with
    | nil => exact h
    | cons b rest =>
      unfold receiveBytes
      split
      · exact ih (setKept_keeps h)
      · exact ih (raiseLinkError_keeps (setKept_keeps h))
      · split
        · exact ih (acceptFrame_keeps (activateLink_keeps (setKept_keeps h)))
        · exact ih (raiseLinkError_keeps (setKept_keeps h))

theorem execCharacterTaken_completes (data : Byte) (stopBit : Bool) (s : State) :
    Completes s (execCharacterTaken data stopBit s) := by
  unfold execCharacterTaken
  split
  · exact receiveBytes_keeps (.refl s)
  · exact .refl s

theorem execInterByteTimeout_completes (s : State) : Completes s (execInterByteTimeout s) := by
  unfold execInterByteTimeout
  split
  · exact raiseLinkError_keeps (setKept_keeps (.refl s))
  · exact .refl s

theorem execLinkBreak_completes (s : State) : Completes s (execLinkBreak s) := by
  unfold execLinkBreak
  dsimp only
  split <;> exact (Keeps.refl s).frame ⟨rfl, rfl, rfl⟩

theorem execTransmitFrameEnd_completes (s : State) : Completes s (execTransmitFrameEnd s) := by
  unfold execTransmitFrameEnd
  split
  · exact (Keeps.refl s).frame (by simp)
  · exact .refl s

/-! ### Requests -/

theorem answer_keeps {tag : Byte} {status : Status} {body : List Byte} (h : Keeps s₀ s) :
    Keeps s₀ (answer tag status body s) := h.frame (by simp)

theorem refuse_keeps {tag : Byte} {status : Status} {length : Nat} {number : Byte} (h : Keeps s₀ s) :
    Keeps s₀ (refuse tag status length number s) := answer_keeps h

theorem taken_keeps {rest : List Request} (h : Keeps s₀ s) : Keeps s₀ (s.taken rest) := h.frame ⟨rfl, rfl, rfl⟩

/-- A request command keeps what its owner keeps. -/
theorem serve_keeps {kind tag : Byte} {body : List Byte} {owner : State → State} (s : State)
    (howner : ∀ t, Keeps s t → Keeps s (owner t)) : Keeps s (serve kind tag body owner s) := by
  unfold serve
  split
  · next t ht =>
    obtain ⟨rest, -, -, rfl⟩ := takeRequest_some ht
    have h := taken_keeps (rest := rest) (.refl s)
    unfold dispatch
    split
    · exact answer_keeps h
    · split
      · exact answer_keeps h
      · exact howner _ h
  · exact .refl s

theorem execUnknownKind_completes (kind tag : Byte) (body : List Byte) (s : State) :
    Completes s (execUnknownKind kind tag body s) := by
  unfold execUnknownKind
  split
  · next t _ ht =>
    obtain ⟨rest, -, -, rfl⟩ := takeRequest_some ht
    exact answer_keeps (taken_keeps (.refl s))
  · exact .refl s

theorem abandonRelease_keeps (h : Keeps s₀ s) : Keeps s₀ (abandonRelease s) := by
  unfold abandonRelease
  split
  · exact makeReply_keeps (h.frame (by simp))
  · exact h

theorem closeWindows_keeps (h : Keeps s₀ s) : Keeps s₀ (closeWindows s) := by
  unfold closeWindows
  induction List.finRange 4 generalizing s with
  | nil => exact h
  | cons w ws ih => exact ih (restartWindow_keeps h)

theorem beginRestart_keeps {tag : Byte} (h : Keeps s₀ s) : Keeps s₀ (beginRestart tag s) := by
  have ha := abandonRelease_keeps (h.frame (t := ((s.setLink { s.link with engine := .held }).setDevice .restarting).setRestart
    (some ⟨tag, false⟩)) (by simp))
  exact closeWindows_keeps (ha.frame (by simp [haltPorts]))

theorem setNotice_keeps {tag : Byte} {threshold : Nat} (h : Keeps s₀ s) : Keeps s₀ (setNotice tag threshold s) := by
  unfold setNotice
  dsimp only
  split
  · exact answer_keeps (h.frame (by simp))
  · exact answer_keeps h

theorem readRetired_keeps {tag : Byte} {offset : Nat} (h : Keeps s₀ s) : Keeps s₀ (readRetired tag offset s) := by
  unfold readRetired
  dsimp only
  split <;> exact answer_keeps h

theorem withRegion_keeps {tag : Byte} {body : List Byte} {length : Nat} {f : RegionId → State → State} (h : Keeps s₀ s)
    (hf : ∀ r, Keeps s₀ (f r s)) : Keeps s₀ (withRegion tag body length f s) := by
  unfold withRegion
  split
  · exact refuse_keeps h
  · exact hf _

theorem defineRegion_keeps {tag : Byte} {body : List Byte} {r : RegionId} (h : Keeps s₀ s) :
    Keeps s₀ (defineRegion tag body r s) := by
  unfold defineRegion
  dsimp only
  split
  · split
    · exact refuse_keeps h
    · exact answer_keeps (h.frame (by simp))
  · exact refuse_keeps h

theorem notifyCapturing_keeps {r : RegionId} (h : Keeps s₀ s) : Keeps s₀ (notifyCapturing r s) := by
  unfold notifyCapturing
  split
  · exact capturingNotice_keeps h
  · exact h

theorem armRegion_keeps {tag : Byte} {r : RegionId} (h : Keeps s₀ s) : Keeps s₀ (armRegion tag r s) := by
  unfold armRegion
  dsimp only
  split
  · exact refuse_keeps h
  · split
    · exact refuse_keeps h
    · split
      · exact answer_keeps h
      · next t ht =>
        obtain ⟨hp, hf, -, -, hs, -⟩ := reserve_frame ht
        exact answer_keeps (storeGrant_keeps (notifyCapturing_keeps (h.frame ⟨hp, hf, hs⟩)))

theorem triggerRegion_keeps {tag : Byte} {r : RegionId} (h : Keeps s₀ s) : Keeps s₀ (triggerRegion tag r s) := by
  unfold triggerRegion
  dsimp only
  split
  · exact answer_keeps (h.frame (by simp))
  · split
    · exact answer_keeps h
    · exact refuse_keeps h

theorem stopRequest_keeps {tag : Byte} {r : RegionId} (h : Keeps s₀ s) : Keeps s₀ (stopRequest tag r s) := by
  unfold stopRequest
  dsimp only
  split
  · exact h.frame (by simp)
  · split
    · exact answer_keeps h
    · exact refuse_keeps h

theorem releaseRegion_keeps {tag : Byte} {r : RegionId} (h : Keeps s₀ s) : Keeps s₀ (releaseRegion tag r s) := by
  unfold releaseRegion
  dsimp only
  split
  · exact answer_keeps h
  · split
    · exact refuse_keeps h
    · split
      · split
        · exact refuse_keeps h
        · exact h.frame ⟨rfl, rfl, rfl⟩
      · exact refuse_keeps h

theorem setEventsRegion_keeps {tag : Byte} {body : List Byte} {r : RegionId} (h : Keeps s₀ s) :
    Keeps s₀ (setEventsRegion tag body r s) := by
  unfold setEventsRegion
  dsimp only
  split
  · exact answer_keeps (h.frame ⟨rfl, rfl, rfl⟩)
  · exact refuse_keeps h

theorem moveBinding_keeps {p : PortId} {target : Option RegionId} (h : Keeps s₀ s) : Keeps s₀ (moveBinding p target s) := by
  unfold moveBinding setBoundPort
  repeat' split
  all_goals exact h.frame (by simp)

theorem bindAt_keeps {tag : Byte} {body : List Byte} (h : Keeps s₀ s) : Keeps s₀ (bindAt tag body s) := by
  unfold bindAt
  dsimp only
  split
  · split
    · exact refuse_keeps h
    · split
      · exact refuse_keeps h
      · exact answer_keeps (setPort_keeps (moveBinding_keeps h))
  · exact refuse_keeps h

theorem queryPort_keeps {tag : Byte} {body : List Byte} (h : Keeps s₀ s) : Keeps s₀ (queryPort tag body s) := by
  unfold queryPort
  split <;> exact answer_keeps h

theorem openAt_keeps {tag : Byte} {body : List Byte} (h : Keeps s₀ s) : Keeps s₀ (openAt tag body s) := by
  unfold openAt
  dsimp only
  split
  · split
    · exact answer_keeps h
    · split
      · exact answer_keeps h
      · exact answer_keeps (setWindow_keeps h)
  · exact answer_keeps h

theorem fetchAt_keeps {tag : Byte} {body : List Byte} (h : Keeps s₀ s) : Keeps s₀ (fetchAt tag body s) := by
  unfold fetchAt
  dsimp only
  split
  · exact answer_keeps h
  · split
    · exact answer_keeps h
    · exact storeGrant_keeps (fetchNext_keeps h)

theorem closeAt_keeps {tag : Byte} {body : List Byte} (h : Keeps s₀ s) : Keeps s₀ (closeAt tag body s) := by
  unfold closeAt
  dsimp only
  split
  · exact refuse_keeps h
  · split
    · exact answer_keeps h
    · exact refuse_keeps h
    · exact setWindow_keeps h
    · exact answer_keeps (storeGrant_keeps (becomeClosed_keeps h))

theorem queryWindow_keeps {tag : Byte} {body : List Byte} (h : Keeps s₀ s) : Keeps s₀ (queryWindow tag body s) := by
  unfold queryWindow
  split <;> exact answer_keeps h

/-! ### Every command -/

/-- Every command other than HARD_RESET completes, or stops at an operation outside the store. -/
theorem exec_completes (c : Instr) (s : State) (hc : ∀ cause rate mode, c ≠ .hardReset cause rate mode) :
    Completes s (exec c s) := by
  cases c with
  | hardReset cause rate mode => exact absurd rfl (hc cause rate mode)
  | sweepStepComplete words => exact execSweepStepComplete_completes words s
  | directoryClearComplete => exact execDirectoryClearComplete_completes s
  | byteStrobe p data sor mrk => exact takePortByte_keeps (.refl s)
  | recordWriteComplete => exact execRecordWriteComplete_completes s
  | directoryReadComplete word => exact execDirectoryReadComplete_completes word s
  | directoryWriteComplete word => exact execDirectoryWriteComplete_completes word s
  | recordReadComplete words => exact execRecordReadComplete_completes words s
  | releaseWalkStep => exact execReleaseWalkStep_completes s
  | restartWalkBegin => exact execRestartWalkBegin_completes s
  | restartWalkStep => exact execRestartWalkStep_completes s
  | frameReceived data => exact receiveBytes_keeps (.refl s)
  | interByteTimeout => exact execInterByteTimeout_completes s
  | linkBreak => exact execLinkBreak_completes s
  | transmitFrameEnd => exact execTransmitFrameEnd_completes s
  | unknownKind kind tag body => exact execUnknownKind_completes kind tag body s
  | identify tag body => exact serve_keeps s fun _ => answer_keeps
  | status tag body => exact serve_keeps s fun _ => answer_keeps
  | restart tag body => exact serve_keeps s fun _ => beginRestart_keeps
  | setPoolNotice tag body => exact serve_keeps s fun _ => setNotice_keeps
  | retired tag body => exact serve_keeps s fun _ => readRetired_keeps
  | define tag body => exact serve_keeps s fun _ h => withRegion_keeps h fun _ => defineRegion_keeps h
  | arm tag body => exact serve_keeps s fun _ h => withRegion_keeps h fun _ => armRegion_keeps h
  | trigger tag body => exact serve_keeps s fun _ h => withRegion_keeps h fun _ => triggerRegion_keeps h
  | stop tag body => exact serve_keeps s fun _ h => withRegion_keeps h fun _ => stopRequest_keeps h
  | release tag body => exact serve_keeps s fun _ h => withRegion_keeps h fun _ => releaseRegion_keeps h
  | query tag body => exact serve_keeps s fun _ h => withRegion_keeps h fun _ => answer_keeps h
  | setEvents tag body => exact serve_keeps s fun _ h => withRegion_keeps h fun _ => setEventsRegion_keeps h
  | bindPort tag body => exact serve_keeps s fun _ => bindAt_keeps
  | portQuery tag body => exact serve_keeps s fun _ => queryPort_keeps
  | openWindow tag body => exact serve_keeps s fun _ => openAt_keeps
  | fetch tag body => exact serve_keeps s fun _ => fetchAt_keeps
  | closeWindow tag body => exact serve_keeps s fun _ => closeAt_keeps
  | windowQuery tag body => exact serve_keeps s fun _ => queryWindow_keeps
  | characterTaken data stopBit => exact execCharacterTaken_completes data stopBit s

/-! ### HARD_RESET -/

theorem abandonedMemory_wf {st : Store} (h : Memory.wf st.memory) (draw : Nat) : Memory.wf (abandonedMemory st draw) := by
  unfold abandonedMemory
  split
  · exact h
  · exact Memory.write_wf h _ _

theorem abandonedErrors_wf {st : Store} (h : wordErrorsWf st.errors) : wordErrorsWf (abandonedErrors st) := by
  unfold abandonedErrors
  split
  · exact h
  · exact setWordErrors_wf h _ _ _

/-- HARD_RESET completes with the queue kept, the store's words in their canonical forms and no wait counted. -/
theorem execHardReset_keeps (cause : ResetCause) (rate : BitVec 2) (mode : InitMode) (s : State) :
    ∃ t, exec (.hardReset cause rate mode) s = .next t ∧ t.pending = s.pending ∧
      (s.memoryCanonical → t.memoryCanonical) ∧ t.fetchWaitBounded :=
  ⟨_, rfl, rfl, fun c => ⟨abandonedMemory_wf c.1 _, abandonedErrors_wf c.2⟩, Nat.zero_le _, fun _ => rfl⟩

/-- A command that comes to a next state keeps what `Keeps` names, or is HARD_RESET. -/
theorem exec_next {c : Instr} {s t : State} (h : exec c s = .next t) :
    Keeps s t ∨ ∃ cause rate mode, c = .hardReset cause rate mode := by
  by_cases hc : ∃ cause rate mode, c = .hardReset cause rate mode
  · exact .inr hc
  · simp only [not_exists] at hc
    have hk := exec_completes c s hc
    rw [h] at hk
    exact .inl hk

/-- Every command keeps the canonical forms and the bound of the fetch-wait count. -/
theorem exec_keeps_form {c : Instr} {s t : State} (h : exec c s = .next t) :
    (s.memoryCanonical → t.memoryCanonical) ∧ (s.fetchWaitBounded → t.fetchWaitBounded) := by
  rcases exec_next h with hk | ⟨cause, rate, mode, rfl⟩
  · exact ⟨hk.canonical, hk.bounded⟩
  · obtain ⟨u, hu, -, hc, hb⟩ := execHardReset_keeps cause rate mode s
    obtain rfl : u = t := Host.Outcome.next.inj (hu.symm.trans h)
    exact ⟨hc, fun _ => hb⟩

end Sys2Proof.Machine

open Sys2Proof Sys2Proof.Machine

/-- Settles O54: each operation keeps the forms, and `exec` is made of them. -/
theorem stepsKeepTheStoreInForm : Obligations.StepsKeepTheStoreInForm := by
  intro s t h
  unfold step at h
  split at h
  · obtain rfl := Host.Outcome.next.inj h
    exact ⟨id, id⟩
  · next c rest _ => exact exec_keeps_form (s := { s with pending := rest }) h

/-- Settles O2: every meaning ends in `Completes`, HARD_RESET aside, which always completes. -/
theorem commandsComplete : Obligations.CommandsComplete := by
  refine ⟨fun c s => ?_, fun c s t h => ?_⟩
  · by_cases hc : ∃ cause rate mode, c = .hardReset cause rate mode
    · obtain ⟨cause, rate, mode, rfl⟩ := hc
      obtain ⟨t, ht, -⟩ := execHardReset_keeps cause rate mode s
      exact .inl ⟨t, ht⟩
    · simp only [not_exists] at hc
      have hk := exec_completes c s hc
      revert hk
      cases exec c s with
      | next t => exact fun _ => .inl ⟨t, rfl⟩
      | fault r => exact fun hk => .inr ⟨congrArg _ hk.1, hk.2⟩
      | refused r => exact False.elim
  · rcases exec_next h with hk | ⟨cause, rate, mode, rfl⟩
    · exact ⟨hk.pending, fun _ => hk.freeCount⟩
    · obtain ⟨u, hu, hp, -⟩ := execHardReset_keeps cause rate mode s
      obtain rfl : u = t := Host.Outcome.next.inj (hu.symm.trans h)
      exact ⟨hp, fun hn => absurd rfl (hn cause rate mode)⟩
end

section
/-! SUPPORT. The reset state, and initialization (1.5): the pages of a sweep and of the directory clears, and its completion. -/

namespace Sys2Proof.Machine

/-! ### The reset state -/

@[simp] theorem State.reset_region (r : RegionId) : State.reset.region r = Region.reset := vector_get_replicate _ r
@[simp] theorem State.reset_port (p : PortId) : State.reset.port p = Port.reset := vector_get_replicate _ p
@[simp] theorem State.reset_window (w : WindowId) : State.reset.window w = Window.reset := vector_get_replicate _ w
@[simp] theorem State.reset_reservation (r : RegionId) : State.reset.reservation r = 0 := vector_get_replicate _ r
@[simp] theorem State.reset_owned (r : RegionId) : State.reset.owned r = 0 := vector_get_replicate _ r
@[simp] theorem State.reset_writes (p : PortId) : State.reset.store.writes.get p = none := vector_get_replicate _ p
@[simp] theorem State.reset_reads (w : WindowId) : State.reset.store.reads.get w = none := vector_get_replicate _ w
@[simp] theorem State.reset_cache (i : Fin 24) : State.reset.cache.entries.get i = none := vector_get_replicate _ i

theorem State.reset_sweepOnlyAtStart : State.reset.sweepOnlyAtStart := fun _ _ _ _ _ => rfl

theorem State.reset_walkReleasing : State.reset.walkReleasing := fun _ _ _ _ _ _ h => nomatch h

theorem State.reset_reservationsSum : State.reset.reservationsSum := by
  refine ⟨?_, Nat.le_refl 0, ?_, State.reset_walkReleasing, State.reset_sweepOnlyAtStart,
    fun _ => ⟨rfl, State.reset_reservation, ?_⟩⟩
  · rw [show State.reset.reservation = fun _ => 0 from funext State.reset_reservation]
    rfl
  · simp
  · exact fun _ h => nomatch h

theorem State.reset_portAccounts : State.reset.portAccounts := by
  refine ⟨?mirror, State.reset_walkReleasing, ?balanced, ?staging, ?inFlight, ?issued, ?claim, ?restarting, ?walk⟩
  case mirror => simp [State.bindingsMirror, Port.reset, Region.reset]
  case balanced => simp [Port.balanced, Port.reset, PortCounts.zero]
  case staging => simp [Port.reset]
  case inFlight =>
    intro p
    simp only [State.reset_port, State.reset_writes, Port.reset, Option.isSome_none, Bool.false_eq_true, false_or, false_iff]
    exact fun ⟨_, h⟩ => nomatch h
  case issued => exact fun _ _ h => nomatch h
  case claim => simp [Port.reset]
  case restarting => exact fun h => nomatch h
  case walk => exact fun _ h => nomatch h

theorem State.reset_outstandingAccounts : State.reset.outstandingAccounts := by
  refine ⟨fun w => ?_, fun _ => rfl, ?_, Nat.zero_le 8⟩
  · simp [Window.coherent, Window.reset]
  · simp [State.runningRequests, Window.reset]
    rfl

/-! ### The pages of the sweep (R16) -/

/-- The read-back fails where one of its words does. -/
theorem any_sweepWordFails (page : Nat) (words : List (Nat × WordRead)) :
    (List.range Config.pageWords).any (sweepWordFails page words) = true ↔ sweepBad page words := by
  have fails : ∀ i, sweepWordFails page words i = true ↔ ((wordReadAt words i).outcome = .uncorrectable ∨
      ∃ data, (wordReadAt words i).escaped = some data ∧ data ≠ Config.sweepPattern page i) := by
    intro i
    unfold sweepWordFails
    cases h : (wordReadAt words i).escaped <;> simp [h]
  simp [sweepBad, fails, Config.pageWords]

/-- Conditions set twice on the same words are those set last. -/
theorem wordErrorsSet.over {e between before : List (Nat × WordOutcome)} {first count : Nat} {f g : Nat → WordOutcome}
    (h : wordErrorsSet e between first count f) (hb : wordErrorsSet between before first count g) :
    wordErrorsSet e before first count f := by
  intro n
  rw [h n]
  split
  · rfl
  · next hn => rw [hb n, if_neg hn]

/-- A page written and read back is swept: the errors that its words kept are gone when it is read back. -/
theorem sweptPage_readBack (page : Nat) (words : List (Nat × WordRead)) (s : State) :
    sweptPage s page words (readWords (page * Config.pageWords) Config.pageWords (fun i => (wordReadAt words i).outcome)
      (storeBytes (page * Config.pageBytes) (patternPage page) s)) := by
  obtain ⟨memory, written, hholds, hsame, hwritten, hstore⟩ := storeBytes_spec (page * Config.pageBytes) (patternPage page) s
  rw [patternPage_length] at hsame hwritten
  have first : page * Config.pageBytes / 8 = page * Config.pageWords := by simp only [Config.pageBytes, Config.pageWords]; omega
  have count : Config.pageBytes / 8 = Config.pageWords := rfl
  rw [first, count] at hwritten
  rw [hstore]
  obtain ⟨errors, herrors, hread⟩ := readWords_fresh
    (s := { s with store := { s.store with memory := memory, errors := written } })
    (fun i hi => hwritten.fresh hi) (fun i => (wordReadAt words i).outcome)
  rw [hread]
  exact ⟨hholds, hsame, herrors.over hwritten, rfl⟩

/-- SWEEP_STEP_COMPLETE: the page is swept and its verdict reported (R16). -/
theorem exec_sweepStepComplete {s : State} {page : Nat} (words : List (Nat × WordRead))
    (hp : s.store.port = some (.sweepStep page)) (hpage : page < 16384) :
    ∃ swept, sweptPage s page words swept ∧
      (sweepBad page words →
        exec (.sweepStepComplete words) s = .next (sweepAdvance page (reportSwept page false swept))) ∧
      (¬sweepBad page words →
        exec (.sweepStepComplete words) s = .next (sweepAdvance page (reportSwept page true swept))) := by
  have hin : (StoreOp.sweepStep page).inStore = true := decide_eq_true hpage
  refine ⟨_, sweptPage_readBack page words s, fun h => ?_, fun h => ?_⟩
  · simp only [exec, execSweepStepComplete, hp, hin, if_true, (any_sweepWordFails page words).2 h, Bool.not_true]
  · simp only [exec, execSweepStepComplete, hp, hin, if_true, Bool.eq_false_iff.2 (mt (any_sweepWordFails page words).1 h),
      Bool.not_false]

/-- A directory page's region takes the verdict (R29, R41). -/
theorem reportSwept_directory (r : RegionId) (good : Bool) (s : State) :
    reportSwept r.val good s = s.setRegion r { s.region r with suspect := !good } := by
  simp [reportSwept, regionArg_val]

theorem reportSwept_good {page : Nat} (h : 16 ≤ page) (s : State) : reportSwept page true s = s := by
  simp [reportSwept, regionArg_none h]

theorem retirePage_sweep (page : Nat) (s : State) : retirePage page .sweep none s = sweptBad page s := by
  by_cases h : s.alloc.retiredList.length < 512
  · exact (if_pos h).trans (congrArg s.setAlloc (if_pos h).symm)
  · exact (if_neg h).trans (congrArg s.setAlloc (if_neg h).symm)

/-- A bad data page is retired with origin SWEEP (R28, R29). -/
theorem reportSwept_bad {page : Nat} (h : 16 ≤ page) (s : State) : reportSwept page false s = sweptBad page s := by
  simp [reportSwept, regionArg_none h, retirePage_sweep]

theorem sweepAdvance_next {page : Nat} (h : page + 1 < 16384) (s : State) : sweepAdvance page s =
    { s with store := { s.store with initProgress := page + 1, port := some (.sweepStep (page + 1)) } } :=
  if_pos h

theorem sweepAdvance_last (s : State) : sweepAdvance 16383 s = completeInitialization s := rfl

theorem sweptPage.region {s t : State} {page : Nat} {words : List (Nat × WordRead)} (h : sweptPage s page words t)
    (r : RegionId) : t.region r = s.region r := by
  obtain ⟨-, -, -, ht⟩ := h
  rw [ht]
  rfl

/-! ### The directory clears (R15) -/

theorem clearedPage_storeBytes (page : Nat) (s : State) :
    clearedPage s page (storeBytes (page * Config.pageBytes) (List.replicate Config.pageBytes 0) s) := by
  obtain ⟨memory, errors, hholds, hsame, herrors, hstore⟩ :=
    storeBytes_spec (page * Config.pageBytes) (List.replicate Config.pageBytes 0) s
  rw [List.length_replicate] at hsame herrors
  have first : page * Config.pageBytes / 8 = page * 512 := by simp only [Config.pageBytes]; omega
  rw [first] at herrors
  rw [hstore]
  refine ⟨fun a h1 h2 => ?_, hsame, herrors, rfl⟩
  have hi : a - page * 4096 < Config.pageBytes := by simp only [Config.pageBytes]; omega
  have := hholds (a - page * 4096) 0 (by rw [List.getElem?_replicate, if_pos hi])
  rwa [show page * Config.pageBytes + (a - page * 4096) = a by simp only [Config.pageBytes]; omega] at this

/-- DIRECTORY_CLEAR_COMPLETE: the page is cleared, and the next clear begins or initialization completes (R15). -/
theorem exec_directoryClearComplete {s : State} {page : Nat} (hp : s.store.port = some (.directoryClear page))
    (hpage : page < 16) : ∃ cleared, clearedPage s page cleared ∧
      (page + 1 < 16 → exec .directoryClearComplete s = .next { cleared with
        store := { cleared.store with initProgress := page + 1, port := some (.directoryClear (page + 1)) } }) ∧
      (16 ≤ page + 1 → exec .directoryClearComplete s = .next (completeInitialization cleared)) := by
  have hin : (StoreOp.directoryClear page).inStore = true := decide_eq_true hpage
  refine ⟨_, clearedPage_storeBytes page s, fun h => ?_, fun h => ?_⟩ <;>
    simp only [exec, execDirectoryClearComplete, hp, hin, if_true]
  · exact if_pos h
  · exact if_neg (Nat.not_lt.2 h)

/-! ### The completion of initialization (R17, R29, R38, R190) -/

/-- The state in which READY is raised at the end of initialization. -/
def servingState (s : State) : State := { s with
  device := .run
  store := { s.store with
    condition := .serving, initProgress := 16384, port := none, directoryOps := [], portPointer := 3, windowPointer := 3,
    fetchWait := 0 }
  alloc := { s.alloc with
    pool := (List.range' 16 16368).filter (fun page => decide (tableEntry s.alloc.table page = .free)), reservedTotal := 0 } }

theorem completeInitialization_eq (s : State) : completeInitialization s =
    evaluateNotice (raiseEvent .ready (.ready s.events.readyCause) (servingState s)) := rfl

theorem completeInitialization_reports (s : State) :
    (completeInitialization s).reports .ready (.ready s.events.readyCause) :=
  evaluateNotice_keeps (by decide) (raiseEvent_reports rfl)

theorem completeInitialization_settled (s : State) (h : (completeInitialization s).alloc.armed = true) :
    (completeInitialization s).alloc.threshold ≤ (completeInitialization s).alloc.available :=
  evaluateNotice_settled (by simp) h

end Sys2Proof.Machine

open Sys2Proof Sys2Proof.Machine

/-- Settles O6, from what the sweep does to its page and where the verdict goes. -/
theorem sweepStepJudgesThePage : Obligations.SweepStepJudgesThePage := by
  intro s words page hp hpage
  obtain ⟨swept, hswept, hbad, hgood⟩ := exec_sweepStepComplete words hp (Nat.lt_of_succ_lt hpage)
  refine ⟨swept, hswept, ?_, ?_, fun h16 h => ?_, fun h16 h => ?_⟩
  · rintro r rfl h
    rw [hbad h, reportSwept_directory, sweepAdvance_next hpage, hswept.region]
    rfl
  · rintro r rfl h
    rw [hgood h, reportSwept_directory, sweepAdvance_next hpage, hswept.region]
    rfl
  · rw [hgood h, reportSwept_good h16, sweepAdvance_next hpage]
  · rw [hbad h, reportSwept_bad h16, sweepAdvance_next hpage]
    rfl

/-- Settles O7, from what a clear does to its page. -/
theorem directoryClearZeroesThePage : Obligations.DirectoryClearZeroesThePage := by
  intro s page hp hpage
  obtain ⟨cleared, hcleared, hnext, -⟩ := exec_directoryClearComplete hp (Nat.lt_of_succ_lt hpage)
  exact ⟨cleared, hcleared, hnext hpage⟩

/-- Settles O8: the last page's judgement goes before the completion, whose raises leave what `servingState` sets. -/
theorem initializationCompletes : Obligations.InitializationCompletes := by
  refine ⟨fun s words hp => ?_, fun s hp => ?_, fun s => ?_⟩
  · obtain ⟨swept, hswept, hbad, hgood⟩ := exec_sweepStepComplete words hp (by decide)
    refine ⟨swept, hswept, fun h => ?_, fun h => ?_⟩
    · rw [hgood h, reportSwept_good (by decide), sweepAdvance_last]
    · rw [hbad h, reportSwept_bad (by decide), sweepAdvance_last]
  · obtain ⟨cleared, hcleared, -, hlast⟩ := exec_directoryClearComplete hp (by decide)
    exact ⟨cleared, hcleared, hlast (by decide)⟩
  · refine ⟨completeInitialization_eq s, ?_⟩
    have hreports := completeInitialization_reports s
    have hsettled := completeInitialization_settled s
    rw [completeInitialization_eq] at hreports hsettled ⊢
    simp only [evaluateNotice_frame, raiseEvent_frame] at hsettled ⊢
    exact ⟨rfl, rfl, rfl, rfl, rfl, rfl, rfl, fun _ => ⟨rfl, rfl⟩, rfl, rfl, rfl, hreports, hsettled, rfl, rfl, rfl, rfl⟩

/-- Settles O4: the vectors read back as what they were filled with, and every other field by evaluation. -/
theorem resetValues : Obligations.ResetValues := by
  refine ⟨rfl, rfl, rfl, rfl, rfl, rfl, rfl, rfl, rfl, rfl, rfl, rfl, rfl, rfl, rfl, rfl, rfl, rfl, rfl, rfl, rfl,
    rfl, rfl, rfl, rfl, rfl, rfl, rfl, rfl, rfl, rfl, rfl, rfl, rfl,
    State.reset_cache, fun r => ?_, fun p => ?_, fun w => ?_⟩
  · exact ⟨State.reset_region r, State.reset_reservation r, State.reset_owned r⟩
  · exact ⟨State.reset_port p, State.reset_writes p⟩
  · exact ⟨State.reset_window w, State.reset_reads w⟩

/-- Settles O60: after reset nothing is pending, waiting, owned or in flight. -/
theorem resetMeetsTheInvariants : Obligations.ResetMeetsTheInvariants := by
  refine ⟨⟨Memory.nil_wf, List.Pairwise.nil, fun _ h => nomatch h⟩, ⟨Nat.zero_le _, fun _ => rfl⟩, List.nodup_nil, ?_,
    ⟨State.reset_sweepOnlyAtStart, trivial, fun h => nomatch h⟩, State.reset_reservationsSum, State.reset_portAccounts,
    State.reset_outstandingAccounts⟩
  intro i j a b hi
  simp at hi
end

section
/-! SUPPORT. The store arbiter's grant (1.4), class by class. -/

namespace Sys2Proof.Machine

variable {st : Store}

/-- The grant decision is made: the port is free and the store serves (R12). -/
theorem Store.decides (hp : st.port = none) (hc : st.condition = .serving) :
    ¬(st.port.isSome = true ∨ st.condition = .initializing) := by
  simp [hp, hc]

theorem Store.waitCount_idle (h : ∀ w, st.reads.get w = none) : st.waitCount = st.fetchWait := by
  simp [Store.waitCount, Store.readWaits_false h]

theorem Store.waitCount_waiting (h : ¬∀ w, st.reads.get w = none) : st.waitCount = st.fetchWait + 1 := by
  simp [Store.waitCount, Store.readWaits_true h]

/-- The guard turns no grant while no read waits or the count is below 8 (R14). -/
theorem Store.guard_off (h : (∀ w, st.reads.get w = none) ∨ st.fetchWait < 8) :
    ¬(Config.fetchGuard ≤ st.fetchWait ∧ st.readWaits) := by
  rintro ⟨hg, hr⟩
  rcases h with h | h
  · simp [Store.readWaits_false h] at hr
  · exact absurd h (Nat.not_lt.2 hg)

theorem Store.grantRead_idle (h : ∀ w, st.reads.get w = none) : st.grantRead = st := by
  simp [Store.grantRead, roundRobin, h]

/-- The read granted is the first that waits, from the one after the window pointer (R13). -/
theorem Store.grantRead_first {w : WindowId} {op : RecordRead} (hw : st.reads.get w = some op)
    (hfirst : ∀ q, st.reads.get q ≠ none → w - (st.windowPointer + 1) ≤ q - (st.windowPointer + 1)) : st.grantRead =
    { st with port := some (.recordRead w op), reads := st.reads.set w.val none w.isLt, windowPointer := w, fetchWait := 0 } := by
  have hr : roundRobin st.windowPointer (fun q => (st.reads.get q).isSome) = some w :=
    roundRobin_first _ _ _ (by simp [hw]) fun q hq => hfirst q (Option.isSome_iff_ne_none.1 hq)
  simp only [Store.grantRead, hr, hw]

/-- The write granted is the first that waits, from the one after the port pointer (R13). -/
theorem Store.grantWrite_first {p : PortId} {op : RecordWrite} (hp : st.writes.get p = some op)
    (hfirst : ∀ q, st.writes.get q ≠ none → p - (st.portPointer + 1) ≤ q - (st.portPointer + 1)) : st.grantWrite =
    { st with port := some (.recordWrite p op), writes := st.writes.set p.val none p.isLt, portPointer := p,
              fetchWait := st.waitCount } := by
  have hr : roundRobin st.portPointer (fun q => (st.writes.get q).isSome) = some p :=
    roundRobin_first _ _ _ (by simp [hp]) fun q hq => hfirst q (Option.isSome_iff_ne_none.1 hq)
  simp only [Store.grantWrite, hr, hp]

/-- Class 1: the head of the directory queue (R12). -/
theorem Store.grant_directory {op : DirectoryOp} {rest : List DirectoryOp} (hp : st.port = none) (hc : st.condition = .serving)
    (hd : st.directoryOps = op :: rest) (hg : ¬(Config.fetchGuard ≤ st.fetchWait ∧ st.readWaits)) :
    st.grant = { st with port := some (.directory op), directoryOps := rest, fetchWait := st.waitCount } := by
  simp only [Store.grant, if_neg (Store.decides hp hc), if_neg hg, hd, Store.grantDirectory]

/-- Class 2: a record write (R12). -/
theorem Store.grant_write {p : PortId} {op : RecordWrite} (hp : st.port = none) (hc : st.condition = .serving)
    (hd : st.directoryOps = []) (hw : st.writes.get p = some op) (hg : ¬(Config.fetchGuard ≤ st.fetchWait ∧ st.readWaits)) :
    st.grant = st.grantWrite := by
  simp only [Store.grant, if_neg (Store.decides hp hc), if_neg hg, hd, Store.writeWaits_true hw, if_true]

/-- Class 3, and the guard: a record read, where the first two classes are empty or the count is 8 (R12, R14). -/
theorem Store.grant_read {w : WindowId} {op : RecordRead} (hp : st.port = none) (hc : st.condition = .serving)
    (hw : st.reads.get w = some op) (h : 8 ≤ st.fetchWait ∨ (st.directoryOps = [] ∧ ∀ p, st.writes.get p = none)) :
    st.grant = st.grantRead := by
  have hr : st.readWaits = true := Store.readWaits_true fun hn => by simp [hn w] at hw
  rw [Store.grant, if_neg (Store.decides hp hc)]
  rcases h with h | ⟨hd, hn⟩
  · exact if_pos ⟨h, hr⟩
  · simp [hd, Store.writeWaits_false hn]

/-- Nothing waits: nothing is granted. -/
theorem Store.grant_idle (hd : st.directoryOps = []) (hw : ∀ p, st.writes.get p = none) (hr : ∀ w, st.reads.get w = none) :
    st.grant = st := by
  simp [Store.grant, hd, Store.writeWaits_false hw, Store.grantRead_idle hr]

end Sys2Proof.Machine

open Sys2Proof Sys2Proof.Machine

/-- Settles O12: one clause a class, with the count as `waitCount` gives it. -/
theorem storeGrantsInOrder : Obligations.StoreGrantsInOrder := by
  refine ⟨fun _ => rfl, fun st => ⟨fun h => if_pos h, Store.grant_idle, fun hp hc => ⟨?_, ?_, ?_, ?_⟩⟩⟩
  · intro op rest hd hn
    rw [Store.grant_directory hp hc hd (Store.guard_off (.inl hn)), Store.waitCount_idle hn]
  · intro op rest hd hn h8
    rw [Store.grant_directory hp hc hd (Store.guard_off (.inr h8)), Store.waitCount_waiting hn]
  · intro p op hd hw hfirst
    refine ⟨fun hn => ?_, fun hn h8 => ?_⟩
    · rw [Store.grant_write hp hc hd hw (Store.guard_off (.inl hn)), Store.grantWrite_first hw hfirst, Store.waitCount_idle hn]
    · rw [Store.grant_write hp hc hd hw (Store.guard_off (.inr h8)), Store.grantWrite_first hw hfirst,
        Store.waitCount_waiting hn]
  · intro w op hw hfirst h
    rw [Store.grant_read hp hc hw h, Store.grantRead_first hw hfirst]
end

section
/-! SUPPORT. The completions of store operations (1.3, chapters 4 to 8): the bytes of a slot in its word, the read of one word,
what a fill answers and what a record read brings about. -/

namespace Sys2Proof.Machine

/-! ### A slot in its word (R3, R8) -/

/-- Byte `i` of a number's bytes, most significant first. -/
theorem beBytes_get (n x i : Nat) (h : i < n) : (beBytes n x)[i]? = some (BitVec.ofNat 8 (x / 256 ^ (n - 1 - i))) := by
  induction n generalizing i with
  | zero => omega
  | succ n ih =>
    cases i with
    | zero => simp [beBytes]
    | succ i =>
      rw [beBytes, List.getElem?_cons_succ, ih i (by omega)]
      congr 4
      omega

/-- The value of slot `s` of a word, as a field of its bits (R3). -/
theorem slotOfWord_eq (data : Word) (s : Nat) : slotOfWord data s = data.toNat / 2 ^ (48 - 16 * (s % 4)) % 65536 := by
  have hs : s % 4 = 0 ∨ s % 4 = 1 ∨ s % 4 = 2 ∨ s % 4 = 3 := by omega
  rcases hs with hs | hs | hs | hs <;> simp [slotOfWord, wordBytes, beBytes, beValue, hs] <;> omega

/-- The bytes of a word with its slot replaced: the slot's two are the value's, the others the word's (R8). -/
theorem wordWithSlot_get (data : Word) (s v i : Nat) (h : i < 8) : (wordWithSlot data s v)[i]? =
    some (if i = s % 4 * 2 then BitVec.ofNat 8 (v / 256) else if i = s % 4 * 2 + 1 then BitVec.ofNat 8 v
      else BitVec.ofNat 8 (data.toNat / 256 ^ (7 - i))) := by
  have hlt : s % 4 < 4 := Nat.mod_lt _ (by omega)
  have hbefore : ((wordBytes data).take (s % 4 * 2)).length = s % 4 * 2 := by simp; omega
  have hslot : beBytes 2 v = [BitVec.ofNat 8 (v / 256), BitVec.ofNat 8 v] := by simp [beBytes]
  have hbyte : (wordBytes data)[i]? = some (BitVec.ofNat 8 (data.toNat / 256 ^ (7 - i))) := beBytes_get 8 _ i h
  rw [wordWithSlot, List.append_assoc, hslot]
  by_cases h1 : i < s % 4 * 2
  · rw [List.getElem?_append_left (by omega), List.getElem?_take, if_pos h1, hbyte, if_neg (by omega), if_neg (by omega)]
  · rw [List.getElem?_append_right (by omega), hbefore]
    by_cases h2 : i = s % 4 * 2
    · simp [h2]
    · by_cases h3 : i = s % 4 * 2 + 1
      · simp [h3]
      · rw [List.getElem?_append_right (by simp; omega), List.getElem?_drop, if_neg h2, if_neg h3,
          show s % 4 * 2 + 2 + (i - s % 4 * 2 - [BitVec.ofNat 8 (v / 256), BitVec.ofNat 8 v].length) = i by simp; omega, hbyte]

theorem slotWordAddress_eq (g : RegionId) (s : Nat) : slotWordAddress g s = (g.val * 512 + s / 4) * 8 := by
  simp only [slotWordAddress, Config.pageBytes]
  omega

section
variable {memory : List Host.Cell} {r : RegionId} {slot page : Nat} {data : Word}

/-- Byte `i` of a slot's word that has been written. -/
theorem read_slotWord (h : Memory.holds memory (slotWordAddress r slot) (wordWithSlot data slot page)) {i : Nat} (hi : i < 8) :
    Memory.read memory ((r.val * 512 + slot / 4) * 8 + i) =
      if i = slot % 4 * 2 then BitVec.ofNat 8 (page / 256) else if i = slot % 4 * 2 + 1 then BitVec.ofNat 8 page
      else BitVec.ofNat 8 (data.toNat / 256 ^ (7 - i)) := by
  rw [← slotWordAddress_eq]
  exact h i _ (wordWithSlot_get data slot page i hi)

/-- The slot written reads as its page number, high byte first (R3). -/
theorem read_slot (h : Memory.holds memory (slotWordAddress r slot) (wordWithSlot data slot page)) :
    Memory.read memory (r.val * 4096 + 2 * slot) = BitVec.ofNat 8 (page / 256) ∧
      Memory.read memory (r.val * 4096 + 2 * slot + 1) = BitVec.ofNat 8 page := by
  have high := read_slotWord h (i := slot % 4 * 2) (by omega)
  have low := read_slotWord h (i := slot % 4 * 2 + 1) (by omega)
  rw [if_pos rfl] at high
  rw [if_neg (by omega), if_pos rfl] at low
  exact ⟨by rw [← high]; congr 1; omega, by rw [← low]; congr 1; omega⟩

/-- The other bytes of the word are those of the data it was rewritten with (R8). -/
theorem read_besideSlot (h : Memory.holds memory (slotWordAddress r slot) (wordWithSlot data slot page)) {i : Nat} (hi : i < 8)
    (hs : i / 2 ≠ slot % 4) :
    Memory.read memory ((r.val * 512 + slot / 4) * 8 + i) = BitVec.ofNat 8 (data.toNat / 256 ^ (7 - i)) := by
  rw [read_slotWord h hi, if_neg (by omega), if_neg (by omega)]

end

/-- A byte of the word at an address is the byte there. -/
theorem byte_readWord (m : List Host.Cell) (a : Nat) {i : Nat} (hi : i < 8) :
    BitVec.ofNat 8 ((Memory.readWord m a).toNat / 256 ^ (7 - i)) = Memory.read m (a + i) := by
  have h := beBytes_get 8 (Memory.readWord m a).toNat i hi
  rw [show beBytes 8 (Memory.readWord m a).toNat = _ from wordBytes_readWord m a, Memory.readBytes_get _ _ _ _ hi] at h
  exact (Option.some.inj h).symm

/-- A slot's word rewritten with the data that stood in it: only the slot changes (R8). -/
theorem sameOutside_slot {memory m : List Host.Cell} {r : RegionId} {slot page : Nat}
    (h : Memory.holds memory (slotWordAddress r slot)
      (wordWithSlot (Memory.readWord m (slotWordAddress r slot)) slot page))
    (hout : Memory.sameOutside memory m (slotWordAddress r slot) 8) :
    Memory.sameOutside memory m (r.val * 4096 + 2 * slot) 2 := by
  intro x hx
  rw [slotWordAddress_eq] at hout
  by_cases hword : (r.val * 512 + slot / 4) * 8 ≤ x ∧ x < (r.val * 512 + slot / 4) * 8 + 8
  · obtain ⟨i, rfl⟩ : ∃ i, x = (r.val * 512 + slot / 4) * 8 + i := ⟨x - (r.val * 512 + slot / 4) * 8, by omega⟩
    rw [read_besideSlot h (by omega) (by omega), byte_readWord _ _ (by omega), slotWordAddress_eq]
  · exact hout x (by omega)

/-! ### The read of one word (R2, R7, R9) -/

/-- The state after the words of the operation on the port have been read: the port is free, the words stand in error as
`errors` says, and the corrected ones are counted. -/
def State.wordsRead (s : State) (errors : List (Nat × WordOutcome)) (corrected : Nat) : State :=
  { s with store := { s.store with
    port := none, errors := errors, correctable := min 65535 (s.store.correctable + corrected) } }

theorem readWords_freePort (first count : Nat) (cells : Nat → WordOutcome) (s : State) :
    ∃ errors, wordErrorsSet errors s.store.errors first count (fun i =>
        if s.store.wordOutcome first cells i = .corrected then .corrected else wordError s.store.errors (first + i)) ∧
      readWords first count cells (freePort s) =
        s.wordsRead errors ((List.range count).countP (fun i => decide (s.store.wordOutcome first cells i = .corrected))) :=
  readWords_spec first count cells (freePort s)

/-- One word read: it keeps its error if it reads corrected, and is then counted. -/
theorem readWord_freePort (n : Nat) (cell : WordOutcome) (s : State) :
    ∃ errors, wordErrorsSet errors s.store.errors n 1 (fun _ =>
        if worseOutcome (wordError s.store.errors n) cell = .corrected then .corrected else wordError s.store.errors n) ∧
      readWords n 1 (fun _ => cell) (freePort s) =
        s.wordsRead errors (if worseOutcome (wordError s.store.errors n) cell = .corrected then 1 else 0) := by
  obtain ⟨errors, herrors, hread⟩ := readWords_freePort n 1 (fun _ => cell) s
  refine ⟨errors, fun m => ?_, ?_⟩
  · rw [herrors m]
    split
    · next hm => simp only [Store.wordOutcome, show m - n = 0 by omega, Nat.add_zero]
    · rfl
  · rw [hread]
    simp [Store.wordOutcome, List.countP_cons]

/-- The value of a slot as a directory read gives it: of the word as stored, or of the other data its cells gave. -/
def slotRead (m : List Host.Cell) (r : RegionId) (slot : Nat) : Option Word → Nat
  | none => (Memory.read m (r.val * 4096 + 2 * slot)).toNat * 256 + (Memory.read m (r.val * 4096 + 2 * slot + 1)).toNat
  | some data => data.toNat / 2 ^ (48 - 16 * (slot % 4)) % 65536

theorem deliveredWord_uncorrectable {w : WordRead} (h : w.outcome = .uncorrectable) (m : List Host.Cell) (a : Nat) :
    deliveredWord m a w = none := if_pos h

/-- The data that a word's read delivers, where it can be corrected. -/
theorem deliveredWord_some {w : WordRead} (h : w.outcome ≠ .uncorrectable) (m : List Host.Cell) (a : Nat) :
    deliveredWord m a w = some (w.escaped.getD (Memory.readWord m a)) := by
  rw [deliveredWord, if_neg h]
  cases w.escaped <;> rfl

theorem slotOfWord_delivered (w : WordRead) (m : List Host.Cell) (r : RegionId) (slot : Nat) :
    slotOfWord (w.escaped.getD (Memory.readWord m (slotWordAddress r slot))) slot = slotRead m r slot w.escaped := by
  cases w.escaped with
  | none => exact slotOfWord_readWord m r slot
  | some data => exact slotOfWord_eq data slot

/-- A slot that names a data page is the page number a directory read reports (R7). -/
theorem directoryReadPage_good {w : WordRead} {m : List Host.Cell} {r : RegionId} {slot : Nat} (ho : w.outcome ≠ .uncorrectable)
    (hv : 16 ≤ slotRead m r slot w.escaped ∧ slotRead m r slot w.escaped ≤ 16383) :
    directoryReadPage m r slot w = some (slotRead m r slot w.escaped) := by
  simp only [directoryReadPage, deliveredWord_some ho, slotOfWord_delivered, if_pos hv]

/-- An uncorrectable word, or a slot with any other number, reads uncorrectable (R7). -/
theorem directoryReadPage_bad {w : WordRead} {m : List Host.Cell} {r : RegionId} {slot : Nat}
    (h : w.outcome = .uncorrectable ∨ slotRead m r slot w.escaped < 16 ∨ 16383 < slotRead m r slot w.escaped) :
    directoryReadPage m r slot w = none := by
  by_cases ho : w.outcome = .uncorrectable
  · simp only [directoryReadPage, deliveredWord_uncorrectable ho]
  · have hv : ¬(16 ≤ slotRead m r slot w.escaped ∧ slotRead m r slot w.escaped ≤ 16383) := by
      have := h.resolve_left ho
      omega
    simp only [directoryReadPage, deliveredWord_some ho, slotOfWord_delivered, if_neg hv]

/-! ### Fills (R89) -/

section
variable {s : State} {r : RegionId} {slot : Nat}

/-- A fill of a pair with no valid entry is installed. -/
theorem fillCompletes_installs (who : Requester) (page : Nat)
    (hi : (s.region r).capturing = true ∨ (s.region r).state = .stopped)
    (hn : ∀ i e, s.cache.entries.get i = some e → ¬(e.region = r ∧ e.slot = slot)) :
    fillCompletes r slot who (some page) s =
      answerRequester r (some page) who (s.setCache (s.cache.install ⟨r, slot, page⟩)) := by
  simp only [fillCompletes, fillPageNumber, if_pos hi, Cache.pageOf, Cache.find_none hn]

/-- A valid entry of the pair stands, and its page answers. -/
theorem fillCompletes_held (who : Requester) (page : Nat)
    (hi : (s.region r).capturing = true ∨ (s.region r).state = .stopped) (hd : s.cache.distinct) {i : Fin 24} {e : CacheEntry}
    (he : s.cache.entries.get i = some e) (hr : e.region = r) (hs : e.slot = slot) :
    fillCompletes r slot who (some page) s = answerRequester r (some e.page) who s := by
  subst hr hs
  simp only [fillCompletes, fillPageNumber, if_pos hi, Cache.pageOf, Cache.find_of_distinct hd he, he, Option.map_some]

/-- A region that neither captures nor is STOPPED takes no fill. -/
theorem fillCompletes_passes (who : Requester) (page : Nat)
    (hi : ¬((s.region r).capturing = true ∨ (s.region r).state = .stopped)) :
    fillCompletes r slot who (some page) s = answerRequester r (some page) who s := by
  simp only [fillCompletes, fillPageNumber, if_neg hi]

end

/-! ### The completions -/

/-- DIRECTORY_READ_COMPLETE: the word is read, and the slot cache takes the fill (R2, R7). -/
theorem exec_directoryReadComplete {s : State} {r : RegionId} {slot : Nat} {who : Requester} (word : WordRead)
    (hp : s.store.port = some (.directory (.read r slot who))) (hslot : slot < 2048) :
    exec (.directoryReadComplete word) s = .next (storeGrant (fillCompletes r slot who
      (directoryReadPage s.store.memory r slot (s.store.wordRead (slotWord r slot) word))
      (readWords (slotWord r slot) 1 (fun _ => word.outcome) (freePort s)))) := by
  have hin : (StoreOp.directory (.read r slot who)).inStore = true := decide_eq_true hslot
  simp only [exec, execDirectoryReadComplete, hp, hin, if_true]

/-- DIRECTORY_WRITE_COMPLETE: the word is read, and written with its slot replaced (R8). -/
theorem exec_directoryWriteComplete {s : State} {r : RegionId} {slot page : Nat} {p : PortId} {word : WordRead}
    (hp : s.store.port = some (.directory (.write r slot page p))) (hslot : slot < 2048)
    (ho : worseOutcome (wordError s.store.errors (slotWord r slot)) word.outcome ≠ .uncorrectable) :
    exec (.directoryWriteComplete word) s = .next (storeGrant (directoryWritten p r page
      (storeBytes (slotWordAddress r slot)
        (wordWithSlot (word.escaped.getD (Memory.readWord s.store.memory (slotWordAddress r slot))) slot page)
        (readWords (slotWord r slot) 1 (fun _ => word.outcome) (freePort s))))) := by
  have hin : (StoreOp.directory (.write r slot page p)).inStore = true := decide_eq_true hslot
  have hd := deliveredWord_some (w := s.store.wordRead (slotWord r slot) word) ho s.store.memory (slotWordAddress r slot)
  simp only [exec, execDirectoryWriteComplete, hp, hin, if_true, hd]
  rfl

/-- DIRECTORY_WRITE_COMPLETE with an uncorrectable word: nothing is written (R8, R148). -/
theorem exec_directoryWriteComplete_fails {s : State} {r : RegionId} {slot page : Nat} {p : PortId} {word : WordRead}
    (hp : s.store.port = some (.directory (.write r slot page p))) (hslot : slot < 2048)
    (ho : worseOutcome (wordError s.store.errors (slotWord r slot)) word.outcome = .uncorrectable) :
    exec (.directoryWriteComplete word) s = .next (storeGrant (directoryWriteFails p r
      (leaveUnreadable (slotWord r slot) (readWords (slotWord r slot) 1 (fun _ => word.outcome) (freePort s))))) := by
  have hin : (StoreOp.directory (.write r slot page p)).inStore = true := decide_eq_true hslot
  have hd := deliveredWord_uncorrectable (w := s.store.wordRead (slotWord r slot) word) ho s.store.memory
    (slotWordAddress r slot)
  simp only [exec, execDirectoryWriteComplete, hp, hin, if_true, hd]

section
variable {s : State} {p : PortId}

/-- A RUNNING writer's claim ends with the page, and its record write is issued (R113). -/
theorem directoryWritten_running (r : RegionId) (page : Nat) {c : Claim} (hw : (s.port p).writer = .running)
    (hc : (s.port p).claim = some c) : directoryWritten p r page s =
      issueRecordWrite p r page (s.setPort p { s.port p with fillPage := some ⟨page, c.newPage⟩, claim := none }) := by
  simp only [directoryWritten, hw, hc, claimEnds]

/-- An outstanding claim ends (R117). -/
theorem directoryWritten_outstanding (r : RegionId) (page : Nat) (hw : (s.port p).writer ≠ .running) :
    directoryWritten p r page s = s.setPort p { s.port p with claim := none } := by
  unfold directoryWritten
  split
  · next h _ => exact absurd h hw
  · rfl

end

/-- Bytes read are those stored. -/
theorem Memory.holds_readBytes (m : List Host.Cell) (a n : Nat) : Memory.holds m a (Memory.readBytes m a n) := by
  intro i b hb
  obtain ⟨hi, rfl⟩ := List.getElem?_eq_some_iff.1 hb
  simp [Memory.readBytes]

theorem anyUncorrectable_iff (outcome : Nat → WordOutcome) (n : Nat) :
    anyUncorrectable outcome n = true ↔ ∃ i, i < n ∧ outcome i = .uncorrectable := by
  simp [anyUncorrectable]

/-- RECORD_READ_COMPLETE: the record's words are read, and the fetch engine takes them (R6). -/
theorem exec_recordReadComplete {s : State} {w : WindowId} {op : RecordRead} (words : List (Nat × WordOutcome))
    (hp : s.store.port = some (.recordRead w op)) (hpage : op.page < 16384) (hlen : op.offset + op.length ≤ 4096) :
    exec (.recordReadComplete words) s = .next (storeGrant (recordReadTaken w op
      (anyUncorrectable (s.store.wordOutcome ((op.page * 4096 + op.offset) / 8) (wordOutcomeAt words)) (op.length / 8))
      (Memory.readBytes s.store.memory (op.page * 4096 + op.offset) op.length)
      (readWords ((op.page * 4096 + op.offset) / 8) (op.length / 8) (wordOutcomeAt words) (freePort s)))) := by
  have hin : (StoreOp.recordRead w op).inStore = true := by
    simp [StoreOp.inStore, Config.storePages, Config.pageBytes, hpage, hlen]
  simp only [exec, execRecordReadComplete, hp, hin, if_true, Config.pageBytes]

section
variable {s : State} {w : WindowId} {op : RecordRead} {f : Fetch} {bytes : List Byte}

/-- A fetch with an end cause ends by it, after the error of its last record (R132, R146). -/
theorem recordReadTaken_cause {cause : EndCause} (uncorrectable : Bool) (hf : (s.window w).fetch = some f)
    (hc : f.endCause = some cause) : recordReadTaken w op uncorrectable bytes s =
      fetchEndByCause w f cause (if uncorrectable then recordError w op.page f.current s else s) := by
  simp only [recordReadTaken, hf, hc]

theorem recordReadTaken_uncorrectable (hf : (s.window w).fetch = some f) (hc : f.endCause = none) :
    recordReadTaken w op true bytes s = fetchEnd w f .mediaError f.gathered (recordError w op.page f.current s) := by
  simp only [recordReadTaken, hf, hc, if_true]

theorem recordReadTaken_read (hf : (s.window w).fetch = some f) (hc : f.endCause = none) :
    recordReadTaken w op false bytes s = fetchRecord w f bytes s := by
  simp [recordReadTaken, hf, hc]

theorem Region.expired_iff (g : Region) (k : Nat) : g.expired k = true ↔ g.anchor * g.rpp ≤ k ∧ k < g.oldest := by
  simp [Region.expired]

/-- The record lay in a page recycled since (R130). -/
theorem fetchRecord_expired (h : (s.region (s.window w).region).expired f.current = true) :
    fetchRecord w f bytes s = fetchEnd w f .expired f.gathered s := if_pos h

/-- The N-th record ends the fetch (R130). -/
theorem fetchRecord_last (h : ¬(s.region (s.window w).region).expired f.current = true)
    (hn : f.total ≤ f.gathered.length + 1) :
    fetchRecord w f bytes s = fetchEnd w f .ok (f.gathered ++ [bytes]) s := by
  simp [fetchRecord, h, hn]

/-- A fetch short of N records goes on with the next seq (R130). -/
theorem fetchRecord_next (h : ¬(s.region (s.window w).region).expired f.current = true)
    (hn : f.gathered.length + 1 < f.total) : fetchRecord w f bytes s =
      fetchNext w { f with gathered := f.gathered ++ [bytes], current := f.current + 1 } s := by
  simp [fetchRecord, h, Nat.not_le.2 hn]

end

end Sys2Proof.Machine

open Sys2Proof Sys2Proof.Machine

/-- Settles O24: `recordWritten` does in order what the statement names, over the store as `storeBytes_spec` gives it. -/
theorem recordWriteStoresTheRecord : Obligations.RecordWriteStoresTheRecord := by
  intro s p w hp hpage hlen
  have hin : (StoreOp.recordWrite p w).inStore = true := by
    simp [StoreOp.inStore, Config.storePages, Config.pageBytes, hpage, hlen]
  obtain ⟨memory, errors, hholds, hsame, herrors, hstore⟩ :=
    storeBytes_spec (w.page * Config.pageBytes + w.offset) w.bytes (freePort s)
  refine ⟨memory, errors, hholds, hsame, herrors, ?_⟩
  simp only [exec, execRecordWriteComplete, hp, hin, if_true, recordWritten, hstore]
  rfl

/-- Settles O25: the four clauses are the answers of the fill, by the slot's value and the pair's entry. -/
theorem directoryReadAnswersTheRequester : Obligations.DirectoryReadAnswersTheRequester := by
  intro s r slot who word hp hslot hd n outcome v corrected good installs step
  obtain ⟨errors, herrors, hread⟩ := readWord_freePort n word.outcome s
  have hv : slotRead s.store.memory r slot word.escaped = v := by simp only [v]; cases word.escaped <;> rfl
  have hpage : good → directoryReadPage s.store.memory r slot (s.store.wordRead n word) = some v := fun ⟨ho, h⟩ => by
    rw [← hv] at h ⊢
    exact directoryReadPage_good ho h
  have hnone : outcome = .uncorrectable ∨ v < 16 ∨ 16383 < v →
      directoryReadPage s.store.memory r slot (s.store.wordRead n word) = none := fun h => by
    rw [← hv] at h
    exact directoryReadPage_bad h
  have hstep : step = .next (storeGrant (fillCompletes r slot who
      (directoryReadPage s.store.memory r slot (s.store.wordRead n word)) (s.wordsRead errors corrected))) := by
    rw [show step = _ from exec_directoryReadComplete word hp hslot, show slotWord r slot = n from rfl, hread]
  refine ⟨errors, herrors, ?installs, ?held, ?passes, ?fails⟩
  case installs =>
    intro hg hi hn
    rw [hstep, hpage hg, fillCompletes_installs (s := s.wordsRead errors corrected) who v hi hn]
    rfl
  case held =>
    intro hg hi i e he hr hs
    rw [hstep, hpage hg, fillCompletes_held (s := s.wordsRead errors corrected) who v hi hd he hr hs]
    rfl
  case passes =>
    intro hg hi
    rw [hstep, hpage hg, fillCompletes_passes (s := s.wordsRead errors corrected) who v hi]
    rfl
  case fails =>
    intro h
    rw [hstep, hnone h]
    rfl

/-- Settles O27: the word is written with its slot replaced, or is left unreadable. -/
theorem directoryWriteStoresTheSlot : Obligations.DirectoryWriteStoresTheSlot := by
  intro s r slot page p word hp hslot _ q a n outcome corrected t step
  obtain ⟨readErrors, hreadErrors, hread⟩ := readWord_freePort n word.outcome s
  have address : slotWordAddress r slot = n * 8 := slotWordAddress_eq r slot
  refine ⟨fun ho => ?written, fun ho => ?fails⟩
  case written =>
    obtain ⟨memory, errors, hholds, hsame, herrors, hstore⟩ := storeBytes_spec (slotWordAddress r slot)
      (wordWithSlot (word.escaped.getD (Memory.readWord s.store.memory (slotWordAddress r slot))) slot page)
      (s.wordsRead readErrors corrected)
    rw [wordWithSlot_length] at hsame herrors
    rw [address, Nat.mul_div_cancel n (by decide)] at herrors
    let u : State := { t with store := { t.store with memory := memory, errors := errors } }
    have hstep : step = .next (storeGrant (directoryWritten p r page u)) := by
      rw [show step = _ from exec_directoryWriteComplete hp hslot ho, show slotWord r slot = n from rfl, hread, hstore]
      rfl
    obtain ⟨hhigh, hlow⟩ := read_slot hholds
    refine ⟨memory, errors, hhigh, hlow, fun he => ?_, fun data he => ⟨?_, fun i hi hs => ?_⟩, herrors.over hreadErrors,
      fun c hw hc => ?_, fun hw => ?_⟩
    · rw [he] at hholds
      exact sameOutside_slot hholds hsame
    · rwa [address] at hsame
    · rw [he] at hholds
      exact read_besideSlot hholds hi hs
    · rw [hstep, directoryWritten_running (s := u) r page hw hc]
      rfl
    · rw [hstep, directoryWritten_outstanding (s := u) r page hw]
      rfl
  case fails =>
    obtain ⟨errors, herrors, hleft⟩ := leaveUnreadable_spec n (s.wordsRead readErrors corrected)
    refine ⟨errors, herrors.over hreadErrors, ?_⟩
    have hstep := exec_directoryWriteComplete_fails hp hslot ho
    rw [show slotWord r slot = n from rfl, hread, hleft] at hstep
    exact hstep

/-- Settles O30: the clauses are the cases of `recordReadTaken` and of `fetchRecord`. -/
theorem recordReadCompletes : Obligations.RecordReadCompletes := by
  intro s w op f words hp hpage hlen hf
  obtain ⟨errors, herrors, hread⟩ :=
    readWords_freePort ((op.page * 4096 + op.offset) / 8) (op.length / 8) (wordOutcomeAt words) s
  have hstep := exec_recordReadComplete words hp hpage hlen
  rw [hread] at hstep
  have hbad := anyUncorrectable_iff (s.store.wordOutcome ((op.page * 4096 + op.offset) / 8) (wordOutcomeAt words)) (op.length / 8)
  have hgood : ∀ h, _ := fun h => Bool.eq_false_iff.2 (mt hbad.1 h)
  refine ⟨_, errors, Memory.readBytes_length _ _ _, Memory.holds_readBytes _ _ _, herrors, ?_, ?_, ?_, ?_, ?_, ?_⟩
  · intro cause hc hb
    rw [hstep, hbad.2 hb, recordReadTaken_cause (s := s.wordsRead errors _) true hf hc]
    rfl
  · intro cause hc hb
    rw [hstep, hgood hb, recordReadTaken_cause (s := s.wordsRead errors _) false hf hc]
    rfl
  · intro hc hb
    rw [hstep, hbad.2 hb, recordReadTaken_uncorrectable (s := s.wordsRead errors _) hf hc]
    rfl
  · intro hc hb he
    rw [hstep, hgood hb, recordReadTaken_read (s := s.wordsRead errors _) hf hc,
      fetchRecord_expired (s := s.wordsRead errors _) ((Region.expired_iff _ _).2 he)]
    rfl
  · intro hc hb he hn
    rw [hstep, hgood hb, recordReadTaken_read (s := s.wordsRead errors _) hf hc,
      fetchRecord_last (s := s.wordsRead errors _) (mt (Region.expired_iff _ _).1 he) hn]
    rfl
  · intro hc hb he hn
    rw [hstep, hgood hb, recordReadTaken_read (s := s.wordsRead errors _) hf hc,
      fetchRecord_next (s := s.wordsRead errors _) (mt (Region.expired_iff _ _).1 he) hn]
    rfl
end

section
/-! SUPPORT. The page allocator's operations (chapter 2): the pool notice, claims and suspect marks, row by row. -/

namespace Sys2Proof.Machine

variable {s : State} {r : RegionId} {page : Nat}

/-! ### The pool notice (R36, R38) -/

theorem evaluateNotice_held (h : s.device ≠ .run) : evaluateNotice s = s := if_pos h

/-- Armed with Available below the threshold: POOL_LOW is raised and the notice disarmed. -/
theorem evaluateNotice_low (hd : s.device = .run) (ha : s.alloc.armed = true) (h : s.alloc.available < s.alloc.threshold) :
    evaluateNotice s = raiseEvent .poolLow (.poolLow s.alloc.available s.alloc.reservedTotal s.alloc.threshold)
      (s.setAlloc { s.alloc with armed := false }) := by
  rw [evaluateNotice, if_neg (not_not.2 hd), if_pos ha, if_pos h]

theorem evaluateNotice_armed (ha : s.alloc.armed = true) (h : s.alloc.threshold ≤ s.alloc.available) : evaluateNotice s = s := by
  rw [evaluateNotice, if_pos ha, if_neg (Nat.not_lt.2 h), ite_self]

theorem evaluateNotice_disarmed (ha : s.alloc.armed = false) (h : s.alloc.available < s.alloc.threshold) :
    evaluateNotice s = s := by
  rw [evaluateNotice, if_neg (Bool.eq_false_iff.1 ha), if_neg (Nat.not_le.2 h), ite_self]

/-- Disarmed with Available at the threshold or above: the notice is armed again. -/
theorem evaluateNotice_rearms (hd : s.device = .run) (ha : s.alloc.armed = false) (h : s.alloc.threshold ≤ s.alloc.available) :
    evaluateNotice s = s.setAlloc { s.alloc with armed := true } := by
  rw [evaluateNotice, if_neg (not_not.2 hd), if_neg (Bool.eq_false_iff.1 ha), if_pos h]

/-! ### Claims (R24) -/

section
variable {rest : List Nat}

/-- A claim against the region's own reservation. -/
theorem claimPage_reserved (hp : s.alloc.pool = page :: rest) (hr : 0 < s.reservation r) : claimPage r s =
    some (page, evaluateNotice { s with alloc := { s.alloc with
      pool := rest, table := tableSet s.alloc.table page (.owned r false)
      ownedPages := s.alloc.ownedPages.set r.val (s.owned r + 1) r.isLt
      reservations := s.alloc.reservations.set r.val (s.reservation r - 1) r.isLt
      reservedTotal := s.alloc.reservedTotal - 1 } }) := by
  simp only [claimPage, hp, if_pos hr]
  rfl

/-- A claim with no reservation, of a page that no other region's reservation needs. -/
theorem claimPage_unreserved (hp : s.alloc.pool = page :: rest) (hr : s.reservation r = 0) (ha : 1 ≤ s.alloc.available) :
    claimPage r s = some (page, evaluateNotice { s with alloc := { s.alloc with
      pool := rest, table := tableSet s.alloc.table page (.owned r false)
      ownedPages := s.alloc.ownedPages.set r.val (s.owned r + 1) r.isLt } }) := by
  simp only [claimPage, hp, if_neg (Nat.not_lt.2 hr.le), if_pos ha]
  rfl

theorem claimPage_refused (hr : s.reservation r = 0) (ha : s.alloc.available = 0) : claimPage r s = none := by
  unfold claimPage
  split
  · rfl
  · rw [if_neg (Nat.not_lt.2 hr.le), if_neg (by omega)]

/-- What a claim that succeeds does to the allocator: the head of the pool becomes OWNED by `r`, against `r`'s reservation where
it holds one. -/
theorem claimPage_alloc {t : State} (h : claimPage r s = some (page, t)) :
    ∃ rest, s.alloc.pool = page :: rest ∧ t.alloc.pool = rest ∧
      t.alloc.table = tableSet s.alloc.table page (.owned r false) ∧
      (∀ q, t.owned q = if q = r then s.owned r + 1 else s.owned q) ∧
      (∀ q, t.reservation q = if q = r then s.reservation r - 1 else s.reservation q) ∧
      t.alloc.reservedTotal = (if 0 < s.reservation r then s.alloc.reservedTotal - 1 else s.alloc.reservedTotal) ∧
      (0 < s.reservation r ∨ 1 ≤ s.alloc.available) ∧
      t.alloc.retiredList = s.alloc.retiredList ∧ t.alloc.scanner = s.alloc.scanner := by
  obtain ⟨rest, hp, ⟨hr, rfl⟩ | ⟨hr, ha, rfl⟩⟩ := claimPage_some h <;> refine ⟨rest, hp, ?_⟩
  · simp [takePage, hr]
  · simp [takePage, hr, ha]

end

/-! ### Suspect marks (R27) -/

theorem markSuspect_owned {flag : Bool} (h : tableEntry s.alloc.table page = .owned r flag) :
    markSuspect page s = { s with alloc := { s.alloc with table := tableSet s.alloc.table page (.owned r true) } } := by
  simp only [markSuspect, h]
  rfl

theorem markSuspect_unowned (h : ∀ r flag, tableEntry s.alloc.table page ≠ .owned r flag) : markSuspect page s = s := by
  unfold markSuspect
  split
  · next r flag he => exact absurd he (h r flag)
  · rfl

/-! ### Pin-end notices (R115, R140) -/

theorem pinEndNotice_unbound (h : (s.region r).boundPort = none) : pinEndNotice r s = s := by
  simp only [pinEndNotice, h]

theorem pinEndNotice_running {p : PortId} (hb : (s.region r).boundPort = some p) (hw : (s.port p).writer ≠ .starved) :
    pinEndNotice r s = s := by
  simp only [pinEndNotice, hb]
  split
  · next h _ => exact absurd h hw
  · rfl

theorem pinEndNotice_starved {p : PortId} {l : Nat} {rc : Recycle} (hb : (s.region r).boundPort = some p)
    (hw : (s.port p).writer = .starved) (hc : (s.port p).claim = some ⟨l, .pinHold, some rc, some page⟩) :
    pinEndNotice r s = recycleStep p r l rc page s := by
  simp only [pinEndNotice, hb, hw, hc]

end Sys2Proof.Machine

open Sys2Proof Sys2Proof.Machine

/-- Settles O15, row by row. -/
theorem poolNoticeEvaluates : Obligations.PoolNoticeEvaluates := fun _ =>
  ⟨evaluateNotice_held, evaluateNotice_low, evaluateNotice_armed, evaluateNotice_disarmed, evaluateNotice_rearms⟩

/-- Settles O14: the two ways a claim succeeds, and what their evaluation of the notice leaves. -/
theorem claimTakesThePoolHead : Obligations.ClaimTakesThePoolHead := by
  intro s r
  refine ⟨fun page rest hp => ⟨claimPage_reserved hp, claimPage_unreserved hp⟩, fun page rest hp h => ?_, claimPage_refused⟩
  have hclaim : ∃ t, claimPage r s = some (page, t) := by
    rcases Nat.eq_zero_or_pos (s.reservation r) with hr | hr
    · exact ⟨_, claimPage_unreserved hp hr (h.resolve_left (by omega))⟩
    · exact ⟨_, claimPage_reserved hp hr⟩
  obtain ⟨t, ht⟩ := hclaim
  obtain ⟨rest', hp', hpool, htable, howned, hres, htotal, -, hlist, hscan⟩ := claimPage_alloc ht
  obtain ⟨-, -, -, -, hstore, hcache, hregions, hports, hwindows, -⟩ := claimPage_frame ht
  obtain rfl : rest' = rest := (List.cons.inj (hp'.symm.trans hp)).2
  refine ⟨t, ht, hpool, fun q => ?_, ?_, ?_, fun q hq => ⟨?_, ?_⟩, htotal, hlist, hscan, hregions, hports, hwindows, hstore,
    hcache⟩
  · rw [htable, tableEntry_tableSet]
  · rw [howned, if_pos rfl]
  · rw [hres, if_pos rfl]
  · rw [howned, if_neg hq]
  · rw [hres, if_neg hq]

/-- Settles O32: the mark and the notice, each where it acts and where it does not. -/
theorem suspectMarksAndPinEnds : Obligations.SuspectMarksAndPinEnds := by
  intro s
  refine ⟨fun _ _ _ => markSuspect_owned, fun page h => markSuspect_unowned fun r flag he => ?_, tableEntry_tableSet,
    fun _ => pinEndNotice_unbound, fun _ _ => pinEndNotice_running, fun _ _ _ _ _ => pinEndNotice_starved⟩
  rcases h with h | h <;> rw [he] at h <;> cases h
end

section
/-! SUPPORT. The walks of the ownership table (2.8), the settings (2.9, R66) and the stop of a region (3.5, R116). -/

namespace Sys2Proof.Machine

variable {s : State} {r : RegionId} {page : Nat}

/-! ### Pages leaving a region (R28, R31, R34) -/

theorem retirePage_listed (origin : RetireOrigin) (owner : Option RegionId) (h : s.alloc.retiredList.length < 512) :
    retirePage page origin owner s = s.setAlloc { s.alloc with
      table := tableSet s.alloc.table page .retired, retiredList := s.alloc.retiredList ++ [⟨page, origin, owner⟩] } :=
  if_pos h

theorem retirePage_unlisted (origin : RetireOrigin) (owner : Option RegionId) (h : 512 ≤ s.alloc.retiredList.length) :
    retirePage page origin owner s = s.setAlloc { s.alloc with
      table := tableSet s.alloc.table page .retired, retiredIncomplete := true } :=
  if_neg (Nat.not_lt.2 h)

theorem retireOwned_listed (origin : RetireOrigin) (h : s.alloc.retiredList.length < 512) : retireOwned r page origin s =
    { s with alloc := { s.alloc with
      retiredList := s.alloc.retiredList ++ [⟨page, origin, some r⟩]
      table := tableSet s.alloc.table page .retired
      ownedPages := s.alloc.ownedPages.set r.val (s.owned r - 1) r.isLt } } := by
  rw [retireOwned, retirePage_listed origin (some r) h]
  rfl

theorem retireOwned_unlisted (origin : RetireOrigin) (h : 512 ≤ s.alloc.retiredList.length) : retireOwned r page origin s =
    { s with alloc := { s.alloc with
      retiredIncomplete := true
      table := tableSet s.alloc.table page .retired
      ownedPages := s.alloc.ownedPages.set r.val (s.owned r - 1) r.isLt } } := by
  rw [retireOwned, retirePage_unlisted origin (some r) h]
  rfl

/-! ### RELEASE_WALK_STEP (R31) -/

section
variable {returned retired : Nat} {tag : Byte} {stale : Bool}

/-- A page of another region, or of none, is left. -/
theorem exec_releaseWalkStep_leaves (h : s.alloc.scanner = .releaseWalk r page returned retired tag stale)
    (he : ∀ flag, tableEntry s.alloc.table page ≠ .owned r flag) :
    exec .releaseWalkStep s = .next (releaseAdvance r page returned retired tag stale s) := by
  simp only [exec, execReleaseWalkStep, h]
  split
  · next owner flag hent =>
    rw [if_neg]
    rintro rfl
    exact he flag hent
  · rfl

theorem exec_releaseWalkStep_returns (h : s.alloc.scanner = .releaseWalk r page returned retired tag stale)
    (he : tableEntry s.alloc.table page = .owned r false) : exec .releaseWalkStep s =
    .next (releaseAdvance r page (returned + 1) retired tag stale (evaluateNotice (returnPage r page s))) := by
  simp [exec, execReleaseWalkStep, h, he]

theorem exec_releaseWalkStep_retires (h : s.alloc.scanner = .releaseWalk r page returned retired tag stale)
    (he : tableEntry s.alloc.table page = .owned r true) : exec .releaseWalkStep s =
    .next (releaseAdvance r page returned (retired + 1) tag stale (retireOwned r page .release s)) := by
  simp [exec, execReleaseWalkStep, h, he]

end

/-! ### The restart walk (R34) -/

/-- The store controller is idle exactly when nothing is on its port and nothing waits (R18). -/
theorem Store.idle_iff (st : Store) : st.idle = true ↔ st.port = none ∧ st.directoryOps = [] ∧
    (∀ p, st.writes.get p = none) ∧ ∀ w, st.reads.get w = none := by
  simp [Store.idle, Store.writeWaits, Store.readWaits, and_assoc]

theorem exec_restartWalkBegin_idle (hd : s.device = .restarting) (hs : s.alloc.scanner = .idle) (hi : s.store.idle = true) :
    exec .restartWalkBegin s = .next { s with alloc := { s.alloc with scanner := .restartWalk 16 }, cache := Cache.reset } :=
  if_pos ⟨hd, hs, hi⟩

theorem exec_restartWalkBegin_waits (h : s.device ≠ .restarting ∨ s.alloc.scanner ≠ .idle ∨ ¬s.store.idle = true) :
    exec .restartWalkBegin s = .next s :=
  if_neg fun ⟨hd, hs, hi⟩ => h.elim (· hd) (Or.elim · (· hs) (· hi))

/-- A step before the last examines its page and goes on to the next. -/
theorem exec_restartWalkStep_next (h : s.alloc.scanner = .restartWalk page) (hp : page + 1 < 16384) :
    exec .restartWalkStep s = .next ((restartExamine page s).setAlloc
      { (restartExamine page s).alloc with scanner := .restartWalk (page + 1) }) := by
  simp only [exec, execRestartWalkStep, h]
  exact if_pos hp

theorem restartExamine_leaves (h : ∀ r flag, tableEntry s.alloc.table page ≠ .owned r flag) : restartExamine page s = s := by
  unfold restartExamine
  split
  · next r flag he => exact absurd he (h r flag)
  · rfl

theorem restartExamine_returns (h : tableEntry s.alloc.table page = .owned r false) :
    restartExamine page s = returnPage r page s := by
  simp [restartExamine, h]

theorem restartExamine_retires (h : tableEntry s.alloc.table page = .owned r true) :
    restartExamine page s = retireOwned r page .restart s := by
  simp [restartExamine, h]

/-! ### SET_POOL_NOTICE (R37) -/

/-- A threshold in range is set, armed and evaluated, and the reply shows what the evaluation leaves. -/
theorem setNotice_inRange {threshold : Nat} (tag : Byte) (h : threshold ≤ 16368) (s : State) : setNotice tag threshold s =
    makeReply tag false .ok (beBytes 2 threshold ++ beBytes 2 s.alloc.available ++ beBytes 2 s.alloc.reservedTotal)
      (evaluateNotice (s.setAlloc { s.alloc with threshold := threshold, armed := true })) := by
  have hbody : noticeBody (evaluateNotice (s.setAlloc { s.alloc with threshold := threshold, armed := true })) =
      beBytes 2 threshold ++ beBytes 2 s.alloc.available ++ beBytes 2 s.alloc.reservedTotal := by
    simp [noticeBody, Allocator.available]
  rw [← hbody]
  exact if_pos h

theorem setNotice_outOfRange {threshold : Nat} (tag : Byte) (h : 16368 < threshold) (s : State) :
    setNotice tag threshold s = makeReply tag false .badArg [0, 0, 0, 0, 0, 0] s :=
  if_neg (Nat.not_le.2 h)

/-! ### The event mask (R66, R159) -/

/-- The entries that a new mask removes: those it masks and the old one did not. -/
theorem keyMasked_newly (r : RegionId) (mask : BitVec 5) (key : EventKey) (s : State) :
    keyMasked r (mask &&& ~~~(s.region r).eventMask) key =
      (masked (s.setRegion r { s.region r with eventMask := mask }) key && !masked s key) := by
  unfold keyMasked masked
  cases key.maskBit with
  | none => rfl
  | some x =>
    obtain ⟨q, i⟩ := x
    by_cases hq : q = r
    · subst hq
      by_cases hi : i < 5
      · simp [hi]
      · simp [BitVec.getLsbD_of_ge mask i (by omega)]
    · simp [hq]

theorem setMask_eq (r : RegionId) (mask : BitVec 5) (s : State) : setMask r mask s =
    (s.setRegion r { s.region r with eventMask := mask }).setEvents { s.events with
      entries := s.events.entries.filter fun e =>
        !(masked (s.setRegion r { s.region r with eventMask := mask }) e.key && !masked s e.key) } := by
  unfold setMask
  simp only [keyMasked_newly, State.setRegion_events]

/-! ### Stops (R52, R116) -/

/-- The stop notice keeps the claim it leaves outstanding, and changes nothing else of the state. -/
theorem stopNotice_claim {p : PortId} {claim : Option Claim} (h : claimAfterStop (s.port p).claim = claim) : stopNotice p s =
    s.setPort p { s.port p with
      writer := .idle, staging := [], fillPage := none, claim := claim
      counts := { (s.port p).counts with dropFlush := (s.port p).counts.dropFlush + (s.port p).staging.length } } := by
  subst h
  rfl

/-- A stop is a raise of STOPPED, with the fields that the stop has set, over the return of the reservation and the notice. -/
theorem stopRegion_eq (r : RegionId) (cause : StopCause) (s : State) : stopRegion r cause s =
    raiseEvent (.stopped r) (.stopped (some cause) (s.region r).committed (s.region r).triggerSeq)
      (stopRegionWriter r (returnReservation r
        (s.setRegion r { s.region r with state := .stopped, stopCause := some cause }))) := by
  simp [stopRegion, raiseStopped, Region.triggerSeq]

@[simp] theorem returnReservation_ledger (r : RegionId) (s : State) :
    (returnReservation r s).alloc.table = s.alloc.table ∧ (returnReservation r s).alloc.pool = s.alloc.pool ∧
    (returnReservation r s).alloc.scanner = s.alloc.scanner ∧ (∀ q, (returnReservation r s).owned q = s.owned q) := by
  unfold returnReservation
  split <;> simp

section
variable (r : RegionId) (cause : StopCause) (s : State)

theorem stopRegion_region (q : RegionId) : (stopRegion r cause s).region q =
    if q = r then { s.region r with state := .stopped, stopCause := some cause } else s.region q := by
  simp [stopRegion_eq]

/-- A stop returns the region's reservation, and leaves the pages where they are. -/
theorem stopRegion_alloc :
    (∀ q, (stopRegion r cause s).reservation q = if q = r then 0 else s.reservation q) ∧
    (∀ q, (stopRegion r cause s).owned q = s.owned q) ∧
    (stopRegion r cause s).alloc.reservedTotal = s.alloc.reservedTotal - s.reservation r ∧
    (stopRegion r cause s).alloc.pool = s.alloc.pool ∧ (stopRegion r cause s).alloc.table = s.alloc.table := by
  obtain ⟨hres, hother, htotal⟩ :=
    returnReservation_spec r (s.setRegion r { s.region r with state := .stopped, stopCause := some cause })
  simp only [stopRegion_eq, raiseEvent_frame, stopRegionWriter_frame, returnReservation_ledger, htotal]
  refine ⟨fun q => ?_, fun _ => rfl, rfl, rfl, rfl⟩
  split
  · next h => rw [h, hres]
  · next h => rw [hother q h]; rfl

theorem stopRegion_port (p : PortId) : (stopRegion r cause s).port p =
    if (s.region r).boundPort = some p then (s.port p).stopped else s.port p := by
  simp [stopRegion_eq, stopRegionWriter_port]

/-- STOPPED is reported unless bit 1 of the region's event mask names it (R66). -/
theorem stopRegion_reports (h : (s.region r).eventMask.getLsbD 1 = false) : (stopRegion r cause s).reports (.stopped r)
    (.stopped (some cause) (s.region r).committed (s.region r).triggerSeq) := by
  rw [stopRegion_eq]
  apply raiseEvent_reports
  simpa [masked, EventKey.maskBit] using h

end

end Sys2Proof.Machine

open Sys2Proof Sys2Proof.Machine

/-- Settles O33: what becomes of the page, with the advance of the scanner. -/
theorem releaseWalkTakesOnePage : Obligations.ReleaseWalkTakesOnePage := by
  intro s r page returned retired tag stale h
  refine ⟨exec_releaseWalkStep_leaves h, exec_releaseWalkStep_returns h, fun he hl => ?_, fun he hl => ?_⟩
  · rw [exec_releaseWalkStep_retires h he, retireOwned_listed .release hl]
    rfl
  · rw [exec_releaseWalkStep_retires h he, retireOwned_unlisted .release hl]
    rfl

/-- Settles O34: the begin by the store's idleness, and a step by the entry it examines. -/
theorem restartWalkBeginsAndSteps : Obligations.RestartWalkBeginsAndSteps := by
  intro s
  dsimp only
  rw [← Store.idle_iff]
  refine ⟨exec_restartWalkBegin_idle, exec_restartWalkBegin_waits, fun page h hp => ⟨fun he => ?_, fun r he => ?_,
    fun r he hl => ?_, fun r he hl => ?_⟩⟩ <;> rw [exec_restartWalkStep_next h hp]
  · rw [restartExamine_leaves fun r flag ho => by rcases he with he | he <;> rw [ho] at he <;> cases he]
    rfl
  · rw [restartExamine_returns he]
    rfl
  · rw [restartExamine_retires he, retireOwned_listed .restart hl]
    rfl
  · rw [restartExamine_retires he, retireOwned_unlisted .restart hl]
    rfl

/-- Settles O43: both requests reach their owner, whose range test decides. -/
theorem settingsTakeEffect : Obligations.SettingsTakeEffect := by
  intro s tag rest
  refine ⟨fun x hx h => ?_, fun b m r hb h => ?_⟩
  · have hexec : exec (.setPoolNotice tag (beBytes 2 x)) s = .next (setNotice tag x (s.taken rest)) := by
      simp only [exec, execSetPoolNotice, serve_requested h rfl]
      rw [show field (beBytes 2 x) 0 2 = x from by simpa using field_beBytes [] [] 2 x hx]
    rw [hexec]
    exact ⟨fun hle => congrArg _ (setNotice_inRange tag hle _), fun hlt => congrArg _ (setNotice_outOfRange tag hlt _)⟩
  · have hexec : exec (.setEvents tag [b, m]) s = .next (setEventsRegion tag [b, m] r (s.taken rest)) := by
      simp only [exec, execSetEvents, serve_requested h rfl, withRegion, field_head, hb, regionArg_val]
    have hm : field [b, m] 1 1 = m.toNat := field_byte [b] [] m
    rw [hexec]
    refine ⟨fun hlt => ?_, fun hle => ?_⟩
    · have hbyte : numberByte m.toNat = m := by simp [numberByte]
      simp only [setEventsRegion, hm, if_pos hlt, numberByte_of_toNat hb, hbyte, setMask_eq, BitVec.ofNat_toNat]
      rfl
    · simp only [setEventsRegion, hm, if_neg (Nat.not_lt.2 hle)]
      rfl

/-- Settles O23: the notice by the stage of the claim; the stop by what each of its four parts leaves. -/
theorem stopLeavesTheRegionStopped : Obligations.StopLeavesTheRegionStopped := by
  refine ⟨fun s p => ⟨fun h => ?_, fun c h hs => ?_, fun c h hs => ?_⟩, fun s r cause => ?_⟩
  · exact stopNotice_claim (by simp [claimAfterStop, h])
  · exact stopNotice_claim (by simp [claimAfterStop, h, hs])
  · exact stopNotice_claim (by simp [claimAfterStop, h, hs])
  · intro g t left returned notified
    have hreturned : returned = returnReservation r left := rfl
    have hport : (returned.region r).boundPort = g.boundPort := by rw [hreturned]; simp [left, g]
    have hnotified : notified = stopRegionWriter r returned := by
      simp only [notified, stopRegionWriter, hport]
      cases g.boundPort <;> rfl
    obtain ⟨hres, howned, htotal, hpool, htable⟩ := stopRegion_alloc r cause s
    obtain ⟨-, -, -, -, hstore, hcache, hwindows, -⟩ := stopRegion_frame s r cause
    refine ⟨?_, ?_, fun q hq => ?_, ?_, fun q hq => ?_, howned, htotal, hpool, htable, fun p hp => ?_, fun p hp => ?_,
      stopRegion_reports r cause s, hstore, hcache, hwindows⟩
    · rw [hnotified, hreturned]
      exact stopRegion_eq r cause s
    · exact (stopRegion_region r cause s r).trans (if_pos rfl)
    · exact (stopRegion_region r cause s q).trans (if_neg hq)
    · exact (hres r).trans (if_pos rfl)
    · exact (hres q).trans (if_neg hq)
    · rw [stopNotice, State.setPort_port, if_pos rfl]
      exact (stopRegion_port r cause s p).trans (if_pos hp)
    · exact (stopRegion_port r cause s p).trans (if_neg hp)
end

section
/-! SUPPORT. What an operation may do to the pages without touching where they are or who has reserved them: the relation
`SamePages`, and one lemma per operation that stands in it. -/

namespace Sys2Proof.Machine

/-! ### The relation -/

/-- The operations that only initialization issues (R15, R16). -/
def StoreOp.initial : StoreOp → Bool
  | .sweepStep _ => true
  | .directoryClear _ => true
  | .recordWrite _ _ => false
  | .recordRead _ _ => false
  | .directory _ => false

/-- Initialization's operations hold the port only while the store is initializing. -/
def Store.sweepOnly (st : Store) : Prop :=
  ∀ op, st.port = some op → op.initial = true → st.condition = .initializing

theorem State.sweepOnlyAtStart_iff (s : State) : s.sweepOnlyAtStart ↔ s.store.sweepOnly := by
  constructor
  · intro h op hp hi
    refine h op hp ?_ ?_ ?_ <;> intros <;> rintro rfl <;> cases hi
  · intro h op hp hd hw hr
    refine h op hp ?_
    cases op with
    | sweepStep page => rfl
    | directoryClear page => rfl
    | directory d => exact absurd rfl (hd d)
    | recordWrite p w => exact absurd rfl (hw p w)
    | recordRead w r => exact absurd rfl (hr w r)

/-- The allocator's accounts of pages handed out and promised (R20, R21), without the ownership table. -/
def Allocator.ledger (a : Allocator) : List Nat × Vector Nat 16 × Nat × Scanner :=
  (a.pool, a.reservations, a.reservedTotal, a.scanner)

theorem Allocator.ledger_eq {a b : Allocator} (h : a.ledger = b.ledger) :
    a.pool = b.pool ∧ a.reservations = b.reservations ∧ a.reservedTotal = b.reservedTotal ∧ a.scanner = b.scanner := by
  simpa [Allocator.ledger] using h

/-- The state `t` has its pages where `s` has them, and promises them as `s` does. While the store initializes the table is still
being made (R29). -/
structure SamePages (s t : State) : Prop where
  device : t.device = s.device
  condition : t.store.condition = s.store.condition
  sweep : s.store.sweepOnly → t.store.sweepOnly
  ledger : t.alloc.ledger = s.alloc.ledger
  free : s.store.condition = .serving →
    ∀ page, tableEntry t.alloc.table page = .free ↔ tableEntry s.alloc.table page = .free
  capturing : ∀ r, (s.region r).capturing = true → (t.region r).capturing = true
  releasing : ∀ r, (s.region r).state = .releasing → (t.region r).state = .releasing

theorem SamePages.refl (s : State) : SamePages s s :=
  ⟨rfl, rfl, id, rfl, fun _ _ => Iff.rfl, fun _ => id, fun _ => id⟩

theorem SamePages.trans {s t u : State} (h : SamePages s t) (k : SamePages t u) : SamePages s u where
  device := k.device.trans h.device
  condition := k.condition.trans h.condition
  sweep := k.sweep ∘ h.sweep
  ledger := k.ledger.trans h.ledger
  free hc page := (k.free (h.condition.trans hc) page).trans (h.free hc page)
  capturing r := k.capturing r ∘ h.capturing r
  releasing r := k.releasing r ∘ h.releasing r

variable {s₀ s t : State}

/-- An operation that leaves the device state, the store, the allocator and the regions. -/
theorem SamePages.frame (h : SamePages s₀ s)
    (e : t.device = s.device ∧ t.store = s.store ∧ t.alloc = s.alloc ∧ ∀ r, t.region r = s.region r) : SamePages s₀ t := by
  obtain ⟨hd, hs, ha, hr⟩ := e
  refine h.trans ⟨hd, by rw [hs], by rw [hs]; exact id, by rw [ha], fun _ _ => by rw [ha], fun r => ?_, fun r => ?_⟩ <;>
    rw [hr] <;> exact id

/-- An operation on the store that issues nothing of initialization's. -/
theorem SamePages.stores {st : Store} (h : SamePages s₀ s) (hc : st.condition = s.store.condition)
    (hp : ∀ op, st.port = some op → op.initial = true → s.store.port = some op) : SamePages s₀ (s.setStore st) :=
  h.trans ⟨rfl, hc, fun k op ho hi => hc.trans (k op (hp op ho hi) hi), rfl, fun _ _ => Iff.rfl, fun _ => id, fun _ => id⟩

/-- An operation on a region that stays in its state, or goes from ARMED to TRIGGERED. -/
theorem SamePages.region {r : RegionId} {x : Region} (h : SamePages s₀ s)
    (hc : (s.region r).capturing = true → x.capturing = true)
    (hr : (s.region r).state = .releasing → x.state = .releasing) : SamePages s₀ (s.setRegion r x) := by
  refine h.trans ⟨rfl, rfl, id, rfl, fun _ _ => Iff.rfl, fun q hq => ?_, fun q hq => ?_⟩ <;> rw [State.setRegion_region] <;>
    split
  · next e => exact hc (e ▸ hq)
  · exact hq
  · next e => exact hr (e ▸ hq)
  · exact hq

theorem SamePages.regionState {r : RegionId} {x : Region} (h : SamePages s₀ s) (hx : x.state = (s.region r).state) :
    SamePages s₀ (s.setRegion r x) :=
  h.region (fun k => by simpa only [Region.capturing, hx] using k) fun k => hx.trans k

/-- An operation on the allocator's other accounts. -/
theorem SamePages.accounts {a : Allocator} (h : SamePages s₀ s) (hl : a.ledger = s.alloc.ledger)
    (hf : ∀ page, tableEntry a.table page = .free ↔ tableEntry s.alloc.table page = .free) : SamePages s₀ (s.setAlloc a) :=
  h.trans ⟨rfl, rfl, id, hl, fun _ => hf, fun _ => id, fun _ => id⟩

/-! ### Events, replies, ports and windows -/

theorem raiseEvent_same {key : EventKey} {payload : Payload} (h : SamePages s₀ s) : SamePages s₀ (raiseEvent key payload s) :=
  h.frame (by simp)

theorem makeReply_same {tag : Byte} {stale : Bool} {status : Status} {body : List Byte} (h : SamePages s₀ s) :
    SamePages s₀ (makeReply tag stale status body s) := h.frame (by simp)

theorem setPort_same {p : PortId} {q : Port} (h : SamePages s₀ s) : SamePages s₀ (s.setPort p q) := h.frame (by simp)

theorem setWindow_same {w : WindowId} {x : Window} (h : SamePages s₀ s) : SamePages s₀ (s.setWindow w x) := h.frame (by simp)

theorem evaluateNotice_same (h : SamePages s₀ s) : SamePages s₀ (evaluateNotice s) :=
  h.trans ⟨by simp, by simp, by simp, by simp [Allocator.ledger], by simp, by simp, by simp⟩

/-! ### The store controller -/

theorem Store.grantRead_port (st : Store) :
    st.grantRead.port = st.port ∨ ∃ w op, st.grantRead.port = some (.recordRead w op) := by
  unfold Store.grantRead
  split
  · exact .inl rfl
  · split
    · exact .inl rfl
    · exact .inr ⟨_, _, rfl⟩

theorem Store.grantWrite_port (st : Store) :
    st.grantWrite.port = st.port ∨ ∃ p op, st.grantWrite.port = some (.recordWrite p op) := by
  unfold Store.grantWrite
  split
  · exact .inl rfl
  · split
    · exact .inl rfl
    · exact .inr ⟨_, _, rfl⟩

/-- The arbiter grants no operation of initialization's. -/
theorem Store.grant_initial {st : Store} {op : StoreOp} (h : st.grant.port = some op) (hi : op.initial = true) :
    st.port = some op := by
  have of_read : st.grantRead.port = some op → st.port = some op := by
    intro k
    rcases st.grantRead_port with e | ⟨w, r, e⟩ <;> rw [e] at k
    · exact k
    · cases k; cases hi
  have of_write : st.grantWrite.port = some op → st.port = some op := by
    intro k
    rcases st.grantWrite_port with e | ⟨w, r, e⟩ <;> rw [e] at k
    · exact k
    · cases k; cases hi
  unfold Store.grant at h
  split at h
  · exact h
  · split at h
    · exact of_read h
    · split at h
      · cases h; cases hi
      · split at h
        · exact of_write h
        · exact of_read h

theorem storeGrant_same (h : SamePages s₀ s) : SamePages s₀ (storeGrant s) :=
  h.stores (by simp) fun _ => Store.grant_initial

theorem freePort_same (h : SamePages s₀ s) : SamePages s₀ (freePort s) := h.stores rfl fun _ k => nomatch k

theorem issueWrite_same {p : PortId} {w : RecordWrite} (h : SamePages s₀ s) : SamePages s₀ (issueWrite p w s) :=
  h.stores rfl fun _ k _ => k

theorem issueRead_same {w : WindowId} {r : RecordRead} (h : SamePages s₀ s) : SamePages s₀ (issueRead w r s) :=
  h.stores rfl fun _ k _ => k

theorem issueDirectory_same {op : DirectoryOp} (h : SamePages s₀ s) : SamePages s₀ (issueDirectory op s) :=
  h.stores rfl fun _ k _ => k

theorem readWords_same {first count : Nat} {cells : Nat → WordOutcome} (h : SamePages s₀ s) :
    SamePages s₀ (readWords first count cells s) := h.stores rfl fun _ k _ => k

theorem leaveUnreadable_same {n : Nat} (h : SamePages s₀ s) : SamePages s₀ (leaveUnreadable n s) :=
  h.stores rfl fun _ k _ => k

theorem storeBytes_same {a : Nat} {bytes : List Byte} (h : SamePages s₀ s) : SamePages s₀ (storeBytes a bytes s) :=
  h.stores rfl fun _ k _ => k

/-! ### The slot cache and the writers -/

theorem lookupSlot_same {r : RegionId} {slot : Nat} {who : Requester} (h : SamePages s₀ s) :
    SamePages s₀ (lookupSlot r slot who s).2 := by
  unfold lookupSlot
  split
  · exact h.frame (by simp)
  · exact issueDirectory_same (h.frame (t := s.setCache s.cache.miss) (by simp))

theorem markerReport_same {r : RegionId} {k : Nat} (h : SamePages s₀ s) : SamePages s₀ (markerReport r k s) := by
  unfold markerReport
  split
  · next hs => exact raiseEvent_same (h.region (fun _ => rfl) fun hr => by rw [hs] at hr; cases hr)
  · exact h

theorem issueRecordWrite_same {p : PortId} {r : RegionId} {page : Nat} (h : SamePages s₀ s) :
    SamePages s₀ (issueRecordWrite p r page s) := by
  unfold issueRecordWrite
  split
  · exact h
  · dsimp only
    split
    · exact markerReport_same (issueWrite_same (setPort_same h))
    · exact issueWrite_same (setPort_same h)

theorem claimEnds_same {p : PortId} {r : RegionId} {l page : Nat} (h : SamePages s₀ s) :
    SamePages s₀ (claimEnds p r l page s) := issueRecordWrite_same (setPort_same h)

theorem pinCheck_same {r : RegionId} {l : Nat} (h : SamePages s₀ s) : SamePages s₀ (pinCheck r l s).2 := by
  unfold pinCheck
  split
  · split
    · exact h.regionState rfl
    · split
      · exact h
      · exact SamePages.regionState (h.frame (by simp)) rfl
  · exact h

theorem recycleStep_same {p : PortId} {r : RegionId} {l : Nat} {rc : Recycle} {page : Nat} (h : SamePages s₀ s) :
    SamePages s₀ (recycleStep p r l rc page s) := by
  unfold recycleStep
  dsimp only
  split
  · exact claimEnds_same (pinCheck_same h)
  · exact raiseEvent_same (setPort_same (pinCheck_same h))
  · exact pinCheck_same h

theorem recycleLookup_same {p : PortId} {r : RegionId} {l : Nat} (h : SamePages s₀ s) :
    SamePages s₀ (recycleLookup p r l s) := by
  unfold recycleLookup
  dsimp only
  split
  · exact recycleStep_same (lookupSlot_same h)
  · exact setPort_same (lookupSlot_same h)

theorem wrapThenRecycle_same {p : PortId} {r : RegionId} {l : Nat} (h : SamePages s₀ s) :
    SamePages s₀ (wrapThenRecycle p r l s) := recycleLookup_same (h.regionState rfl)

theorem countRolling_same {r : RegionId} {l : Nat} (h : SamePages s₀ s) : SamePages s₀ (countRolling r l s) := by
  unfold countRolling
  dsimp only
  split
  · exact h.regionState rfl
  · exact h

theorem freshPage_same {p : PortId} {r : RegionId} {l page : Nat} (h : SamePages s₀ s) :
    SamePages s₀ (freshPage p r l page s) := by
  have hi := issueDirectory_same (op := .write r l page p) (countRolling_same (r := r) (l := l) h)
  exact setPort_same (hi.frame (by simp))

theorem pinEndNotice_same {r : RegionId} (h : SamePages s₀ s) : SamePages s₀ (pinEndNotice r s) := by
  unfold pinEndNotice
  split
  · exact h
  · split
    · exact recycleStep_same h
    · exact h

/-! ### The fetch engine -/

theorem becomeClosed_same {w : WindowId} (h : SamePages s₀ s) : SamePages s₀ (becomeClosed w s) := by
  unfold becomeClosed
  dsimp only
  split
  · exact pinEndNotice_same (setWindow_same h)
  · exact setWindow_same h

theorem closeAfterFetch_same {w : WindowId} (h : SamePages s₀ s) : SamePages s₀ (closeAfterFetch w s) := by
  unfold closeAfterFetch
  dsimp only
  split
  · exact makeReply_same (becomeClosed_same h)
  · exact becomeClosed_same h

theorem fetchEnd_same {w : WindowId} {f : Fetch} {status : Status} {records : List (List Byte)} (h : SamePages s₀ s) :
    SamePages s₀ (fetchEnd w f status records s) := by
  unfold fetchEnd
  dsimp only
  split
  · exact closeAfterFetch_same (setWindow_same (makeReply_same h))
  · exact setWindow_same (makeReply_same h)

theorem fetchEndByCause_same {w : WindowId} {f : Fetch} {cause : EndCause} (h : SamePages s₀ s) :
    SamePages s₀ (fetchEndByCause w f cause s) := by
  cases cause <;> exact fetchEnd_same h

theorem fetchRead_same {w : WindowId} {f : Fetch} {page : Nat} (h : SamePages s₀ s) : SamePages s₀ (fetchRead w f page s) :=
  issueRead_same (setWindow_same h)

theorem fetchNext_same {w : WindowId} {f : Fetch} (h : SamePages s₀ s) : SamePages s₀ (fetchNext w f s) := by
  unfold fetchNext
  dsimp only
  split
  · exact fetchRead_same (lookupSlot_same h)
  · exact setWindow_same (lookupSlot_same h)

theorem fetchAnswer_same {w : WindowId} {page : Option Nat} (h : SamePages s₀ s) : SamePages s₀ (fetchAnswer w page s) := by
  unfold fetchAnswer
  split
  · exact h
  · split
    · exact fetchEndByCause_same h
    · exact fetchRead_same h
    · exact fetchEndByCause_same h

theorem fetchRecord_same {w : WindowId} {f : Fetch} {bytes : List Byte} (h : SamePages s₀ s) :
    SamePages s₀ (fetchRecord w f bytes s) := by
  unfold fetchRecord
  dsimp only
  split
  · exact fetchEnd_same h
  · split
    · exact fetchEnd_same h
    · exact fetchNext_same h

theorem restartWindow_same {w : WindowId} (h : SamePages s₀ s) : SamePages s₀ (restartWindow s w) := by
  unfold restartWindow
  dsimp only
  split
  · exact setWindow_same h
  · split
    · exact becomeClosed_same h
    · exact h

theorem closeWindows_same (h : SamePages s₀ s) : SamePages s₀ (closeWindows s) := by
  unfold closeWindows
  induction List.finRange 4 generalizing s with
  | nil => exact h
  | cons w ws ih => exact ih (restartWindow_same h)

/-! ### Suspect marks and retirement (R27, R28) -/

/-- An entry that was not FREE and does not become FREE. -/
theorem tableSet_free {table : List (Nat × PageEntry)} {page : Nat} {entry : PageEntry} (he : entry ≠ .free)
    (ht : tableEntry table page ≠ .free) (q : Nat) : tableEntry (tableSet table page entry) q = .free ↔
      tableEntry table q = .free := by
  rw [tableEntry_tableSet]
  split
  · next hq => simp [hq, he, ht]
  · rfl

theorem markSuspect_same {page : Nat} (h : SamePages s₀ s) : SamePages s₀ (markSuspect page s) := by
  unfold markSuspect
  split
  · next r flag he => exact h.accounts rfl (tableSet_free (by simp) (by simp [he]))
  · exact h

theorem recordError_same {w : WindowId} {page k : Nat} (h : SamePages s₀ s) : SamePages s₀ (recordError w page k s) :=
  raiseEvent_same (markSuspect_same h)

theorem retireOwned_same {r owner : RegionId} {flag : Bool} {page : Nat} {origin : RetireOrigin} (h : SamePages s₀ s)
    (he : tableEntry s.alloc.table page = .owned owner flag) : SamePages s₀ (retireOwned r page origin s) := by
  have hf := tableSet_free (table := s.alloc.table) (page := page) (entry := .retired) (by simp) (by simp [he])
  rcases Nat.lt_or_ge s.alloc.retiredList.length 512 with hl | hl
  · rw [retireOwned_listed origin hl]
    exact h.accounts rfl hf
  · rw [retireOwned_unlisted origin hl]
    exact h.accounts rfl hf

end Sys2Proof.Machine
end

section
/-! SUPPORT. The two invariants of the pages (R19, R21, R22) through every command: an operation in `SamePages` keeps both, and
each operation that moves a page, or the promise of one, keeps them for a reason of its own. -/

namespace Sys2Proof.Machine

/-- A command taken in `s` that comes to `t` keeps each data page in one place and the reservations backed. -/
structure KeepsPages (s t : State) : Prop where
  places : s.threePlaces → t.threePlaces
  backed : s.reservationsSum → t.reservationsSum

theorem KeepsPages.refl (s : State) : KeepsPages s s := ⟨id, id⟩

theorem KeepsPages.trans {s t u : State} (h : KeepsPages s t) (k : KeepsPages t u) : KeepsPages s u :=
  ⟨k.places ∘ h.places, k.backed ∘ h.backed⟩

/-- Both invariants say that initialization holds the port only at the start, so it may be assumed. -/
theorem KeepsPages.of_sweepOnly {s t : State} (h : s.store.sweepOnly → KeepsPages s t) : KeepsPages s t where
  places k := (h ((State.sweepOnlyAtStart_iff s).1 k.1)).places k
  backed k := by
    obtain ⟨-, -, -, -, hsweep, -⟩ := id k
    exact (h ((State.sweepOnlyAtStart_iff s).1 hsweep)).backed k

/-! ### The invariants, block by block -/

/-- The pool holds every FREE page once, and no other (R21). -/
def Allocator.poolExact (a : Allocator) : Prop :=
  a.pool.Nodup ∧ ∀ page, page ∈ a.pool ↔ 16 ≤ page ∧ page < 16384 ∧ tableEntry a.table page = .free

/-- The reserved total is the sum of the reservations, and the pool backs it (R22). -/
def State.totalBacked (s : State) : Prop :=
  s.alloc.reservedTotal = ((List.finRange 16).map s.reservation).sum ∧ s.alloc.reservedTotal ≤ s.alloc.pool.length

theorem State.threePlaces_iff (s : State) : s.threePlaces ↔ s.store.sweepOnly ∧ s.alloc.scanner.inRange ∧
    (s.store.condition = .serving → s.alloc.poolExact) := by
  rw [← State.sweepOnlyAtStart_iff]
  rfl

/-- What no region and no walk does while the store initializes (R26, R183). -/
def State.initQuiet (s : State) : Prop :=
  s.store.condition = .initializing →
    s.device = .init ∧ (∀ r, s.reservation r = 0) ∧ ∀ page, s.alloc.scanner ≠ .restartWalk page

theorem State.reservationsSum_iff (s : State) : s.reservationsSum ↔ s.totalBacked ∧
    (∀ r, 0 < s.reservation r → (s.region r).capturing = true) ∧ s.walkReleasing ∧ s.store.sweepOnly ∧ s.initQuiet := by
  rw [← State.sweepOnlyAtStart_iff, State.totalBacked, and_assoc]
  rfl

/-- A change of one reservation changes the sum by as much. -/
theorem sum_reservations {f g : RegionId → Nat} {r : RegionId} (h : ∀ q, q ≠ r → g q = f q) :
    ((List.finRange 16).map g).sum + f r = ((List.finRange 16).map f).sum + g r := by
  have hrest : ∑ q ∈ Finset.univ.erase r, g q = ∑ q ∈ Finset.univ.erase r, f q :=
    Finset.sum_congr rfl fun q hq => h q (Finset.ne_of_mem_erase hq)
  calc ((List.finRange 16).map g).sum + f r
      = g r + ∑ q ∈ Finset.univ.erase r, g q + f r := by rw [Finset.add_sum_erase _ _ (Finset.mem_univ r), Fin.sum_univ_def]
    _ = f r + ∑ q ∈ Finset.univ.erase r, f q + g r := by rw [hrest]; omega
    _ = ((List.finRange 16).map f).sum + g r := by rw [Finset.add_sum_erase _ _ (Finset.mem_univ r), Fin.sum_univ_def]

theorem sum_reservations_zero {f : RegionId → Nat} (h : ∀ r, f r = 0) : ((List.finRange 16).map f).sum = 0 := by
  rw [← Fin.sum_univ_def]
  exact Finset.sum_eq_zero fun r _ => h r

/-- Every FREE page in ascending order is an exact pool (R29, R34). -/
theorem poolExact_freePages (a : Allocator) : Allocator.poolExact { a with pool := freePages a.table } := by
  refine ⟨List.Nodup.filter _ List.nodup_range', fun page => ?_⟩
  simp [freePages, Config.directoryPages, Config.dataPages, List.mem_range'_1, and_assoc]

variable {s₀ s t : State}

theorem State.walkReleasing.mono (h : s.walkReleasing) (hn : t.alloc.scanner = s.alloc.scanner)
    (hr : ∀ r, (s.region r).state = .releasing → (t.region r).state = .releasing) : t.walkReleasing :=
  fun r page n m tag stale hs => hr r (h r page n m tag stale (hn ▸ hs))

theorem SamePages.reservation (h : SamePages s t) (r : RegionId) : t.reservation r = s.reservation r := by
  obtain ⟨-, hres, -⟩ := Allocator.ledger_eq h.ledger
  simp only [State.reservation, hres]

/-- An operation that leaves the pages where they are keeps both invariants. -/
theorem SamePages.keepsPages (h : SamePages s t) : KeepsPages s t := by
  obtain ⟨hpool, hres, htotal, hscan⟩ := Allocator.ledger_eq h.ledger
  have hresv : t.reservation = s.reservation := funext h.reservation
  refine ⟨fun k => ?_, fun k => ?_⟩
  · obtain ⟨hsweep, hrange, hexact⟩ := (State.threePlaces_iff s).1 k
    refine (State.threePlaces_iff t).2 ⟨h.sweep hsweep, hscan ▸ hrange, fun hc => ?_⟩
    have hserving := h.condition ▸ hc
    obtain ⟨hnodup, hmem⟩ := hexact hserving
    refine ⟨hpool ▸ hnodup, fun page => ?_⟩
    rw [hpool, hmem, h.free hserving]
  · obtain ⟨⟨hsum, hle⟩, hcap, hwalk, hsweep, hinit⟩ := (State.reservationsSum_iff s).1 k
    refine (State.reservationsSum_iff t).2 ⟨⟨?_, ?_⟩, fun r hr => ?_, hwalk.mono hscan h.releasing, h.sweep hsweep,
      fun hc => ?_⟩
    · rw [htotal, hresv, hsum]
    · rw [htotal, hpool]
      exact hle
    · exact h.capturing r (hcap r (h.reservation r ▸ hr))
    · rw [h.device, hresv, hscan]
      exact hinit (h.condition ▸ hc)

theorem KeepsPages.same (h : KeepsPages s₀ s) (k : SamePages s t) : KeepsPages s₀ t := h.trans k.keepsPages

/-! ### Claims (R24) -/

/-- The head of the pool goes from FREE to OWNED. -/
theorem poolExact_take {a b : Allocator} {page : Nat} {rest : List Nat} {r : RegionId} (h : a.poolExact)
    (hp : a.pool = page :: rest) (hpool : b.pool = rest) (htable : b.table = tableSet a.table page (.owned r false)) :
    b.poolExact := by
  obtain ⟨hnodup, hmem⟩ := h
  rw [hp] at hnodup hmem
  obtain ⟨hnot, hrest⟩ := List.nodup_cons.1 hnodup
  refine ⟨hpool ▸ hrest, fun q => ?_⟩
  rw [hpool, htable, tableEntry_tableSet]
  split
  · next hq => simp [hq, hnot]
  · next hq => rw [← hmem, List.mem_cons, or_iff_right hq]

theorem claimPage_keepsPages {r : RegionId} {page : Nat} (h : claimPage r s = some (page, t)) : KeepsPages s t := by
  obtain ⟨rest, hp, hpool, htable, -, hres, htotal, havail, -, hscan⟩ := claimPage_alloc h
  obtain ⟨-, -, hdevice, -, hstore, -, hregions, -⟩ := claimPage_frame h
  have hregion : ∀ q, t.region q = s.region q := fun q => by simp only [State.region, hregions]
  refine ⟨fun k => ?_, fun k => ?_⟩
  · obtain ⟨hsweep, hrange, hexact⟩ := (State.threePlaces_iff s).1 k
    refine (State.threePlaces_iff t).2 ⟨hstore ▸ hsweep, hscan ▸ hrange, fun hc => ?_⟩
    exact poolExact_take (hexact (hstore ▸ hc)) hp hpool htable
  · obtain ⟨⟨hsum, hle⟩, hcap, hwalk, hsweep, hinit⟩ := (State.reservationsSum_iff s).1 k
    have hothers : ∀ q, q ≠ r → t.reservation q = s.reservation q := fun q hq => by rw [hres, if_neg hq]
    have hown : t.reservation r = s.reservation r - 1 := by rw [hres, if_pos rfl]
    have hfewer : ∀ q, t.reservation q ≤ s.reservation q := fun q => by
      by_cases hq : q = r
      · rw [hq, hown]
        omega
      · exact (hothers q hq).le
    have htsum := sum_reservations hothers
    refine (State.reservationsSum_iff t).2 ⟨⟨?_, ?_⟩, fun q hq => ?_, hwalk.mono hscan fun q hq => hregion q ▸ hq,
      hstore ▸ hsweep, fun hc => ?_⟩
    · rw [htotal]
      split <;> omega
    · rw [hp, List.length_cons] at hle
      rw [htotal, hpool]
      simp only [Allocator.available, hp, List.length_cons] at havail
      split <;> omega
    · rw [hregion]
      exact hcap q (Nat.lt_of_lt_of_le hq (hfewer q))
    · obtain ⟨hd, hzero, hnone⟩ := hinit (hstore ▸ hc)
      exact ⟨hdevice ▸ hd, fun q => Nat.le_zero.1 (hzero q ▸ hfewer q), hscan ▸ hnone⟩

theorem pageClaim_keepsPages {p : PortId} {r : RegionId} {l : Nat} (h : KeepsPages s₀ s) :
    KeepsPages s₀ (pageClaim p r l s) := by
  unfold pageClaim
  dsimp only
  split
  · split
    · next hc => exact (h.trans (claimPage_keepsPages hc)).same (freshPage_same (.refl _))
    · exact h.same (wrapThenRecycle_same (.refl s))
  · exact h.same (wrapThenRecycle_same (.refl s))

theorem takeHead_keepsPages {p : PortId} (h : KeepsPages s₀ s) : KeepsPages s₀ (takeHead p s) := by
  unfold takeHead
  dsimp only
  split
  · exact h
  · split
    · split
      · exact pageClaim_keepsPages h
      · split
        · exact h.same (issueRecordWrite_same (.refl s))
        · exact h
    · exact h

theorem capturingNotice_keepsPages {p : PortId} (h : KeepsPages s₀ s) : KeepsPages s₀ (capturingNotice p s) :=
  takeHead_keepsPages (h.same (setPort_same (.refl s)))

/-! ### Reservations (R23, R26) -/

/-- Where the store, the pool, the table and the scanner stay, so do the pages. -/
theorem State.threePlaces.of_eq (h : s.threePlaces) (hs : t.store = s.store) (hp : t.alloc.pool = s.alloc.pool)
    (ht : t.alloc.table = s.alloc.table) (hn : t.alloc.scanner = s.alloc.scanner) : t.threePlaces := by
  rw [State.threePlaces_iff] at h ⊢
  simpa only [hs, hn, Allocator.poolExact, hp, ht] using h

/-- What a reservation that succeeds does to the allocator. -/
theorem reserve_alloc {r : RegionId} {n : Nat} (h : reserve r n s = some t) :
    n ≤ s.alloc.available ∧ (∀ q, t.reservation q = if q = r then n else s.reservation q) ∧
      t.alloc.reservedTotal = s.alloc.reservedTotal + n ∧ t.alloc.pool = s.alloc.pool ∧ t.alloc.table = s.alloc.table ∧
      t.alloc.scanner = s.alloc.scanner := by
  unfold reserve at h
  split at h
  · next hn =>
    cases h
    simp [hn]
  · cases h

/-- ARM: an IDLE region holds no reservation, and holds one once it captures. -/
theorem arm_keepsPages {r : RegionId} {n : Nat} {x : Region} (hr : reserve r n s = some t) (hd : s.device ≠ .init)
    (hi : (s.region r).state = .idle) (hx : x.state = .armed) : KeepsPages s (t.setRegion r x) := by
  obtain ⟨hn, hres, htotal, hpool, htable, hscan⟩ := reserve_alloc hr
  obtain ⟨-, -, -, -, hstore, -, hregions, -⟩ := reserve_frame hr
  have hregion : ∀ q, t.region q = s.region q := fun q => by simp only [State.region, hregions]
  refine ⟨fun k => k.of_eq hstore hpool htable hscan, fun k => ?_⟩
  obtain ⟨⟨hsum, hle⟩, hcap, hwalk, hsweep, hinit⟩ := (State.reservationsSum_iff s).1 k
  have hnone : s.reservation r = 0 := by
    by_contra hne
    have := hcap r (Nat.pos_of_ne_zero hne)
    simp [Region.capturing, hi] at this
  have htsum := sum_reservations (f := s.reservation) (g := t.reservation) (r := r) fun q hq => by rw [hres, if_neg hq]
  have hown : t.reservation r = n := by rw [hres, if_pos rfl]
  refine (State.reservationsSum_iff _).2 ⟨⟨?_, ?_⟩, fun q hq => ?_, hwalk.mono hscan fun q hq => ?_, ?_, fun hc => ?_⟩
  · change t.alloc.reservedTotal = ((List.finRange 16).map t.reservation).sum
    omega
  · change t.alloc.reservedTotal ≤ t.alloc.pool.length
    rw [htotal, hpool]
    simp only [Allocator.available] at hn
    omega
  · rw [State.setRegion_region]
    split
    · simp [Region.capturing, hx]
    · next hne =>
      rw [State.setRegion_reservation, hres, if_neg hne] at hq
      rw [hregion]
      exact hcap q hq
  · rw [State.setRegion_region, hregion]
    split
    · next he =>
      rw [he, hi] at hq
      cases hq
    · exact hq
  · rw [State.setRegion_store, hstore]
    exact hsweep
  · rw [State.setRegion_store, hstore] at hc
    exact absurd (hinit hc).1 hd

/-- A region that leaves capture returns its reservation. -/
theorem leaveCapture_keepsPages {r : RegionId} {x : Region} (hs : (s.region r).state ≠ .releasing) :
    KeepsPages s (returnReservation r (s.setRegion r x)) := by
  obtain ⟨hown, hothers, htotal⟩ := returnReservation_spec r (s.setRegion r x)
  obtain ⟨htable, hpool, hscan, -⟩ := returnReservation_ledger r (s.setRegion r x)
  obtain ⟨-, -, hdevice, -, hstore, -⟩ := returnReservation_frame (s.setRegion r x) r
  have hregion : ∀ q, q ≠ r → (returnReservation r (s.setRegion r x)).region q = s.region q := fun q hq => by simp [hq]
  generalize returnReservation r (s.setRegion r x) = t at *
  refine ⟨fun k => k.of_eq hstore hpool htable hscan, fun k => ?_⟩
  obtain ⟨⟨hsum, hle⟩, hcap, hwalk, hsweep, hinit⟩ := (State.reservationsSum_iff s).1 k
  have htsum := sum_reservations (f := s.reservation) (g := t.reservation) hothers
  simp only [State.setRegion_reservation, State.setRegion_alloc] at htotal hpool hothers hscan
  refine (State.reservationsSum_iff _).2 ⟨⟨?_, ?_⟩, fun q hq => ?_, hwalk.mono hscan fun q hq => ?_, hstore ▸ hsweep,
    fun hc => ?_⟩
  · omega
  · rw [hpool]
    omega
  · have hne : q ≠ r := by
      rintro rfl
      omega
    rw [hregion q hne]
    exact hcap q (hothers q hne ▸ hq)
  · have hne : q ≠ r := fun e => hs (e ▸ hq)
    rw [hregion q hne]
    exact hq
  · obtain ⟨hd, hzero, hnone⟩ := hinit (hstore ▸ hc)
    refine ⟨hdevice ▸ hd, fun q => ?_, hscan ▸ hnone⟩
    by_cases hq : q = r
    · rw [hq, hown]
    · rw [hothers q hq, hzero]

/-! ### Stops and faults (R52, R62) -/

theorem Region.capturing_not_releasing {g : Region} (h : g.capturing = true) : g.state ≠ .releasing := by
  intro hs
  simp [Region.capturing, hs] at h

theorem stopRegionWriter_same {r : RegionId} (h : SamePages s₀ s) : SamePages s₀ (stopRegionWriter r s) := h.frame (by simp)

theorem stopRegion_keepsPages {r : RegionId} {cause : StopCause} (h : KeepsPages s₀ s)
    (hs : (s.region r).state ≠ .releasing) : KeepsPages s₀ (stopRegion r cause s) := by
  rw [stopRegion_eq]
  exact (h.trans (leaveCapture_keepsPages hs)).same (raiseEvent_same (stopRegionWriter_same (.refl _)))

theorem stopChecks_keepsPages {r : RegionId} (h : KeepsPages s₀ s) (hs : (s.region r).state ≠ .releasing) :
    KeepsPages s₀ (stopChecks r s) := by
  unfold stopChecks
  dsimp only
  split
  · exact stopRegion_keepsPages h hs
  · split
    · exact stopRegion_keepsPages h hs
    · exact h

theorem completionReport_keepsPages {r : RegionId} (h : KeepsPages s₀ s) : KeepsPages s₀ (completionReport r s) := by
  have hcounted : SamePages s (s.setRegion r { s.region r with committed := (s.region r).committed + 1 }) :=
    (SamePages.refl s).regionState rfl
  unfold completionReport
  dsimp only
  split
  · next hc =>
    refine stopChecks_keepsPages (h.same (hcounted.frame (by simp))) ?_
    simpa using Region.capturing_not_releasing hc
  · split
    · exact h.same (hcounted.frame (by simp))
    · exact h

theorem faultReport_keepsPages {r : RegionId} (h : KeepsPages s₀ s) : KeepsPages s₀ (faultReport r s) := by
  unfold faultReport
  dsimp only
  split
  · next hc =>
    have hs : (s.region r).state ≠ .releasing := by
      rcases hc with hc | hc
      · exact Region.capturing_not_releasing hc
      · simp [hc]
    have hleft := h.trans (leaveCapture_keepsPages hs (x := { s.region r with
      state := .faulted, stopCause := some .fault, faultPage := some r.val, suspect := true }))
    exact hleft.same ((SamePages.refl _).frame (by simp))
  · split
    · exact h.same (raiseEvent_same (.refl s))
    · exact h

/-! ### Initialization (R15 to R17, R29) -/

/-- While the store initializes a swept page may be withdrawn: the table is in no relation to the pool yet. -/
theorem reportSwept_same {page : Nat} {good : Bool} (hc : s.store.condition = .initializing) (h : SamePages s₀ s) :
    SamePages s₀ (reportSwept page good s) := by
  unfold reportSwept
  split
  · exact h.regionState rfl
  · split
    · exact h
    · refine h.trans ⟨by simp, by simp, by simp, ?_, fun hs => ?_, by simp, by simp⟩
      · rcases Nat.lt_or_ge s.alloc.retiredList.length 512 with hl | hl
        · rw [retirePage_listed .sweep none hl]
          rfl
        · rw [retirePage_unlisted .sweep none hl]
          rfl
      · rw [hc] at hs
        cases hs

/-- The next sweep step or clear, taken at once (R15, R16). -/
theorem initialStep_same {st : Store} (hc : s.store.condition = .initializing) (h : SamePages s₀ s)
    (hst : st.condition = s.store.condition) : SamePages s₀ (s.setStore st) :=
  h.trans ⟨rfl, hst, fun _ _ _ _ => hst.trans hc, rfl, fun _ _ => Iff.rfl, fun _ => id, fun _ => id⟩

/-- The completion builds the pool with no page promised, as no reservation is held (R29). -/
theorem completeInitialization_keepsPages (hc : s.store.condition = .initializing) :
    KeepsPages s (completeInitialization s) := by
  rw [completeInitialization_eq]
  suffices hserving : KeepsPages s (servingState s) from
    hserving.same (evaluateNotice_same (raiseEvent_same (.refl _)))
  have hsweep : (servingState s).store.sweepOnly := fun _ k => nomatch k
  refine ⟨fun k => ?_, fun k => ?_⟩
  · obtain ⟨-, hrange, -⟩ := (State.threePlaces_iff s).1 k
    exact (State.threePlaces_iff _).2 ⟨hsweep, hrange, fun _ => poolExact_freePages s.alloc⟩
  · obtain ⟨-, hcap, hwalk, -, hinit⟩ := (State.reservationsSum_iff s).1 k
    obtain ⟨-, hzero, -⟩ := hinit hc
    exact (State.reservationsSum_iff _).2 ⟨⟨(sum_reservations_zero hzero).symm, Nat.zero_le _⟩, hcap, hwalk, hsweep,
      fun hs => nomatch hs⟩

theorem sweepAdvance_keepsPages {page : Nat} (h : KeepsPages s₀ s) (hc : s.store.condition = .initializing) :
    KeepsPages s₀ (sweepAdvance page s) := by
  unfold sweepAdvance
  split
  · exact h.same (initialStep_same hc (.refl s) rfl)
  · exact h.trans (completeInitialization_keepsPages hc)

/-! ### The walks (2.8) -/

/-- The scanner goes to a page in range, or walks no more. -/
theorem setScanner_keepsPages {x : Scanner} (h : KeepsPages s₀ s) (hrange : s.alloc.scanner.inRange → x.inRange)
    (hwalk : s.walkReleasing → ∀ r page n m tag stale, x = .releaseWalk r page n m tag stale →
      (s.region r).state = .releasing)
    (hinit : s.initQuiet → s.store.condition = .initializing → ∀ page, x ≠ .restartWalk page) :
    KeepsPages s₀ (s.setAlloc { s.alloc with scanner := x }) := by
  refine h.trans ⟨fun k => ?_, fun k => ?_⟩
  · obtain ⟨hsweep, hr, hexact⟩ := (State.threePlaces_iff s).1 k
    exact (State.threePlaces_iff _).2 ⟨hsweep, hrange hr, hexact⟩
  · obtain ⟨htotal, hcap, hw, hsweep, hi⟩ := (State.reservationsSum_iff s).1 k
    refine (State.reservationsSum_iff _).2 ⟨htotal, hcap, hwalk hw, hsweep, fun hc => ?_⟩
    obtain ⟨hd, hzero, -⟩ := hi hc
    exact ⟨hd, hzero, hinit hi hc⟩

/-- The scanner becomes idle. -/
theorem stopScanner_keepsPages (h : KeepsPages s₀ s) : KeepsPages s₀ (s.setAlloc { s.alloc with scanner := .idle }) :=
  setScanner_keepsPages h (fun _ => trivial) (fun _ _ _ _ _ _ _ k => nomatch k) fun _ _ _ k => nomatch k

/-- An OWNED page goes from the table to the pool's tail (R31, R34). -/
theorem poolExact_return {a b : Allocator} {page : Nat} (h : a.poolExact) (hr : 16 ≤ page ∧ page < 16384)
    (he : tableEntry a.table page ≠ .free) (hpool : b.pool = a.pool ++ [page])
    (htable : b.table = tableSet a.table page .free) : b.poolExact := by
  obtain ⟨hnodup, hmem⟩ := h
  have hnot : page ∉ a.pool := fun hp => he ((hmem page).1 hp).2.2
  refine ⟨?_, fun q => ?_⟩
  · rw [hpool]
    exact List.nodup_append_comm.1 (List.nodup_cons.2 ⟨hnot, hnodup⟩)
  · rw [hpool, htable, tableEntry_tableSet, List.mem_append, List.mem_singleton, hmem]
    split
    · next hq => simp [hq, hr]
    · next hq => simp [hq]

theorem returnPage_keepsPages {r owner : RegionId} {flag : Bool} {page : Nat} (h : KeepsPages s₀ s)
    (hr : s.alloc.scanner.inRange → 16 ≤ page ∧ page < 16384) (he : tableEntry s.alloc.table page = .owned owner flag) :
    KeepsPages s₀ (returnPage r page s) := by
  refine h.trans ⟨fun k => ?_, fun k => ?_⟩
  · obtain ⟨hsweep, hrange, hexact⟩ := (State.threePlaces_iff s).1 k
    refine (State.threePlaces_iff _).2 ⟨hsweep, hrange, fun hc => ?_⟩
    exact poolExact_return (hexact hc) (hr hrange) (by simp [he]) rfl rfl
  · obtain ⟨⟨hsum, hle⟩, hrest⟩ := (State.reservationsSum_iff s).1 k
    refine (State.reservationsSum_iff _).2 ⟨⟨hsum, ?_⟩, hrest⟩
    change s.alloc.reservedTotal ≤ (s.alloc.pool ++ [page]).length
    rw [List.length_append]
    omega

@[simp] theorem returnPage_scanner (r : RegionId) (page : Nat) (s : State) :
    (returnPage r page s).alloc.scanner = s.alloc.scanner := rfl

@[simp] theorem retireOwned_scanner (r : RegionId) (page : Nat) (origin : RetireOrigin) (s : State) :
    (retireOwned r page origin s).alloc.scanner = s.alloc.scanner := by
  rcases Nat.lt_or_ge s.alloc.retiredList.length 512 with hl | hl
  · rw [retireOwned_listed origin hl]
  · rw [retireOwned_unlisted origin hl]

section
variable {r : RegionId} {page : Nat} {tag : Byte} {stale : Bool}

/-- The region of a walk is RELEASING, and so holds no reservation: it may become IDLE as the walk ends. -/
theorem releaseWalkEnds_keepsPages {n m returned retired : Nat} (hs : s.alloc.scanner = .releaseWalk r page n m tag stale) :
    KeepsPages s (releaseWalkEnds r returned retired tag stale s) := by
  suffices hends : KeepsPages s
      ((s.setRegion r { s.region r with state := .idle }).setAlloc { s.alloc with scanner := .idle }) from
    hends.same ((SamePages.refl _).frame (by simp [releaseWalkEnds]))
  refine ⟨fun k => ?_, fun k => ?_⟩
  · obtain ⟨hsweep, -, hexact⟩ := (State.threePlaces_iff s).1 k
    exact (State.threePlaces_iff _).2 ⟨hsweep, trivial, hexact⟩
  · obtain ⟨htotal, hcap, hwalk, hsweep, hinit⟩ := (State.reservationsSum_iff s).1 k
    refine (State.reservationsSum_iff _).2 ⟨htotal, fun q hq => ?_, (fun _ _ _ _ _ _ k => nomatch k), hsweep,
      fun hc => ?_⟩
    · have hcq := hcap q hq
      have hne : q ≠ r := fun e => Region.capturing_not_releasing hcq (e ▸ hwalk r page n m tag stale hs)
      simpa [hne] using hcq
    · obtain ⟨hd, hzero, -⟩ := hinit hc
      exact ⟨hd, hzero, fun _ k => nomatch k⟩

theorem releaseAdvance_keepsPages {n m returned retired : Nat} (h : KeepsPages s₀ s)
    (hs : s.alloc.scanner = .releaseWalk r page n m tag stale) :
    KeepsPages s₀ (releaseAdvance r page returned retired tag stale s) := by
  unfold releaseAdvance
  split
  · next hp =>
    refine setScanner_keepsPages h (fun k => ?_) (fun hw => ?_) fun _ _ _ k => nomatch k
    · rw [hs] at k
      exact ⟨k.1.trans (Nat.le_succ page), hp⟩
    · rintro q _ _ _ _ _ ⟨⟩
      exact hw r page n m tag stale hs
  · exact h.trans (releaseWalkEnds_keepsPages hs)

end

theorem restartExamine_keepsPages {page : Nat} (hs : s.alloc.scanner = .restartWalk page) :
    KeepsPages s (restartExamine page s) ∧ (restartExamine page s).alloc.scanner = .restartWalk page := by
  unfold restartExamine
  split
  · next owner flag he =>
    split
    · exact ⟨(retireOwned_same (.refl s) he).keepsPages, by rw [retireOwned_scanner, hs]⟩
    · exact ⟨returnPage_keepsPages (.refl s) (fun k => by rwa [hs] at k) he, hs⟩
  · exact ⟨.refl s, hs⟩

/-- What the end of RESTART leaves of the store, the table and the reservations (R34, R192). -/
theorem restartCompletes_ledger (s : State) :
    (restartCompletes s).store = s.store ∧ (restartCompletes s).alloc.table = s.alloc.table ∧
    (restartCompletes s).alloc.pool = freePages s.alloc.table ∧ (restartCompletes s).alloc.reservedTotal = 0 ∧
    (∀ r, (restartCompletes s).reservation r = 0) ∧ (restartCompletes s).alloc.scanner = .idle := by
  unfold restartCompletes restartReply restartEvents finishRestartWalk
  dsimp only
  split <;> simp

/-- The end of RESTART rebuilds the pool with no reservation outstanding (R34). -/
theorem restartCompletes_keepsPages {page : Nat} (hs : s.alloc.scanner = .restartWalk page) :
    KeepsPages s (restartCompletes s) := by
  obtain ⟨hstore, htable, hpool, htotal, hzero, hscan⟩ := restartCompletes_ledger s
  generalize restartCompletes s = t at *
  refine ⟨fun k => ?_, fun k => ?_⟩
  · obtain ⟨hsweep, -, -⟩ := (State.threePlaces_iff s).1 k
    refine (State.threePlaces_iff t).2 ⟨hstore ▸ hsweep, hscan ▸ trivial, fun _ => ?_⟩
    simpa only [Allocator.poolExact, hpool, htable] using poolExact_freePages s.alloc
  · obtain ⟨-, -, -, hsweep, hinit⟩ := (State.reservationsSum_iff s).1 k
    refine (State.reservationsSum_iff t).2 ⟨⟨?_, ?_⟩, fun r hr => ?_, fun r page n m tag stale hw => ?_, hstore ▸ hsweep,
      fun hc => ?_⟩
    · rw [htotal, sum_reservations_zero hzero]
    · rw [htotal]
      exact Nat.zero_le _
    · rw [hzero] at hr
      cases hr
    · rw [hscan] at hw
      cases hw
    · exact absurd hs ((hinit (hstore ▸ hc)).2.2 page)

end Sys2Proof.Machine
end

section
/-! SUPPORT. Every command keeps each data page in one place and the reservations backed: `exec_keepsPages`. -/

namespace Sys2Proof.Machine

variable {s₀ s t : State}

/-- The state that a command comes to, if it comes to one, keeps the pages. -/
def PagesKept (s : State) (o : Result) : Prop := ∀ t, o = .next t → KeepsPages s t

theorem PagesKept.next (h : KeepsPages s t) : PagesKept s (.next t) := by
  rintro _ ⟨⟩
  exact h

theorem PagesKept.inStore {op : StoreOp} {o : Result} (h : PagesKept s o) :
    PagesKept s (if op.inStore then o else .fault .outsideStore) := by
  split
  · exact h
  · exact fun _ k => nomatch k

/-! ### HARD_RESET and initialization -/

/-- After a hard reset nothing is pooled, promised or walked. -/
theorem execHardReset_keepsPages (cause : ResetCause) (rate : BitVec 2) (mode : InitMode) (s : State) :
    PagesKept s (execHardReset cause rate mode s) := by
  refine .next ⟨fun _ => ⟨fun _ _ _ _ _ => rfl, trivial, fun h => nomatch h⟩, fun _ => ?_⟩
  obtain ⟨hsum, hle, hcap, hwalk, -, -⟩ := State.reset_reservationsSum
  exact ⟨hsum, hle, hcap, hwalk, fun _ _ _ _ _ => rfl, fun _ => ⟨rfl, State.reset_reservation, fun _ k => nomatch k⟩⟩

theorem execSweepStepComplete_keepsPages (words : List (Nat × WordRead)) (s : State) :
    PagesKept s (execSweepStepComplete words s) := by
  unfold execSweepStepComplete
  split
  · next page hp =>
    refine .inStore (.next (.of_sweepOnly fun hsweep => ?_))
    have hc : s.store.condition = .initializing := hsweep _ hp rfl
    have hread := readWords_same (first := page * Config.pageWords) (count := Config.pageWords)
      (cells := fun i => (wordReadAt words i).outcome)
      (storeBytes_same (a := page * Config.pageBytes) (bytes := patternPage page) (.refl s))
    have hjudged := reportSwept_same (page := page)
      (good := !(List.range Config.pageWords).any (sweepWordFails page words)) (hread.condition.trans hc) hread
    exact sweepAdvance_keepsPages hjudged.keepsPages (hjudged.condition.trans hc)
  · exact .next (.refl s)

theorem execDirectoryClearComplete_keepsPages (s : State) : PagesKept s (execDirectoryClearComplete s) := by
  unfold execDirectoryClearComplete
  split
  · next page hp =>
    refine .inStore ?_
    have hcleared := storeBytes_same (a := page * Config.pageBytes) (bytes := List.replicate Config.pageBytes 0) (.refl s)
    have hc : s.store.sweepOnly → _ := fun hsweep => hcleared.condition.trans (hsweep _ hp rfl)
    dsimp only
    split
    · exact .next (.of_sweepOnly fun k => SamePages.keepsPages (initialStep_same (hc k) hcleared rfl))
    · exact .next (.of_sweepOnly fun k => hcleared.keepsPages.trans (completeInitialization_keepsPages (hc k)))
  · exact .next (.refl s)

/-! ### Records at a capture port -/

theorem stageRecord_keepsPages {p : PortId} {record : StagedRecord} (h : KeepsPages s₀ s) :
    KeepsPages s₀ (stageRecord p record s) := by
  unfold stageRecord
  dsimp only
  split
  · exact (takeHead_keepsPages (h.same (setPort_same (.refl s)))).same (storeGrant_same (.refl _))
  · exact h.same (setPort_same (.refl s))

theorem dropFull_same {p : PortId} (h : SamePages s₀ s) : SamePages s₀ (dropFull p s) := by
  unfold dropFull
  dsimp only
  split
  · exact raiseEvent_same (setPort_same h)
  · exact setPort_same h

theorem recordArrives_keepsPages {p : PortId} {r : RegionId} {record : StagedRecord} {size : Nat} (h : KeepsPages s₀ s) :
    KeepsPages s₀ (recordArrives p r record size s) := by
  unfold recordArrives
  dsimp only
  split
  · exact h.same (setPort_same (.refl s))
  · split
    · exact h.same (dropFull_same (.refl s))
    · exact stageRecord_keepsPages h

theorem takePortByte_keepsPages (p : PortId) (data : Byte) (sor mrk : Bool) (s : State) :
    KeepsPages s (takePortByte p data sor mrk s) := by
  have hport : ∀ q, SamePages s (s.setPort p q) := fun _ => setPort_same (.refl s)
  unfold takePortByte
  split
  · split
    · exact (hport _).keepsPages
    · exact .refl s
  · split
    · split
      · exact (hport _).keepsPages
      · exact .refl s
    · split
      · exact (setPort_same (hport _)).keepsPages
      · split
        · exact recordArrives_keepsPages (hport _).keepsPages
        · exact (hport _).keepsPages

/-! ### Completions of store operations -/

theorem recordWritten_keepsPages (p : PortId) (w : RecordWrite) (s : State) : KeepsPages s (recordWritten p w s) :=
  takeHead_keepsPages (completionReport_keepsPages
    (setPort_same (storeBytes_same (freePort_same (.refl s)))).keepsPages)

theorem execRecordWriteComplete_keepsPages (s : State) : PagesKept s (execRecordWriteComplete s) := by
  unfold execRecordWriteComplete
  split
  · next p w _ => exact .inStore (.next ((recordWritten_keepsPages p w s).same (storeGrant_same (.refl _))))
  · exact .next (.refl s)

theorem writerAnswer_same {p : PortId} {r : RegionId} {page : Option Nat} (h : SamePages s₀ s) :
    SamePages s₀ (writerAnswer p r page s) := by
  unfold writerAnswer
  split
  · exact recycleStep_same h
  · exact setPort_same h

theorem answerRequester_same {r : RegionId} {page : Option Nat} {who : Requester} (h : SamePages s₀ s) :
    SamePages s₀ (answerRequester r page who s) := by
  cases who with
  | writer p => exact writerAnswer_same h
  | window w => exact fetchAnswer_same h

theorem fillCompletes_keepsPages {r : RegionId} {slot : Nat} {who : Requester} {page : Option Nat} (h : KeepsPages s₀ s) :
    KeepsPages s₀ (fillCompletes r slot who page s) := by
  cases page with
  | some v => exact h.same (answerRequester_same ((SamePages.refl s).frame (by simp)))
  | none => exact (faultReport_keepsPages h).same (answerRequester_same (.refl _))

theorem execDirectoryReadComplete_keepsPages (word : WordRead) (s : State) :
    PagesKept s (execDirectoryReadComplete word s) := by
  unfold execDirectoryReadComplete
  split
  · next r slot who _ =>
    have hread := readWords_same (first := slotWord r slot) (count := 1) (cells := fun _ => word.outcome)
      (freePort_same (.refl s))
    exact .inStore (.next ((fillCompletes_keepsPages hread.keepsPages).same (storeGrant_same (.refl _))))
  · exact .next (.refl s)

theorem directoryWritten_same {p : PortId} {r : RegionId} {page : Nat} (h : SamePages s₀ s) :
    SamePages s₀ (directoryWritten p r page s) := by
  unfold directoryWritten
  split
  · exact claimEnds_same h
  · exact setPort_same h

theorem execDirectoryWriteComplete_keepsPages (word : WordRead) (s : State) :
    PagesKept s (execDirectoryWriteComplete word s) := by
  unfold execDirectoryWriteComplete
  split
  · next r slot page p _ =>
    have hread := readWords_same (first := slotWord r slot) (count := 1) (cells := fun _ => word.outcome)
      (freePort_same (.refl s))
    refine .inStore ?_
    dsimp only
    split
    · exact .next (storeGrant_same (directoryWritten_same (storeBytes_same hread))).keepsPages
    · exact .next ((faultReport_keepsPages (setPort_same (leaveUnreadable_same hread)).keepsPages).same
        (storeGrant_same (.refl _)))
  · exact .next (.refl s)

theorem recordReadTaken_same {w : WindowId} {op : RecordRead} {uncorrectable : Bool} {bytes : List Byte}
    (h : SamePages s₀ s) : SamePages s₀ (recordReadTaken w op uncorrectable bytes s) := by
  unfold recordReadTaken
  split
  · exact h
  · next f _ =>
    have ht : SamePages s₀ (if uncorrectable then recordError w op.page f.current s else s) := by
      split
      · exact recordError_same h
      · exact h
    dsimp only
    split
    · exact fetchEndByCause_same ht
    · split
      · exact fetchEnd_same (recordError_same h)
      · exact fetchRecord_same h

theorem execRecordReadComplete_keepsPages (words : List (Nat × WordOutcome)) (s : State) :
    PagesKept s (execRecordReadComplete words s) := by
  unfold execRecordReadComplete
  split
  · exact .inStore (.next (storeGrant_same (recordReadTaken_same (readWords_same (freePort_same (.refl s))))).keepsPages)
  · exact .next (.refl s)

/-! ### The walks -/

theorem execReleaseWalkStep_keepsPages (s : State) : PagesKept s (execReleaseWalkStep s) := by
  unfold execReleaseWalkStep
  split
  · next r page returned retired tag stale hs =>
    split
    · next owner flag he =>
      split
      · split
        · exact .next (releaseAdvance_keepsPages (retireOwned_same (.refl s) he).keepsPages
            (by rw [retireOwned_scanner, hs]))
        · have hreturned := returnPage_keepsPages (r := r) (.refl s) (fun k => by rwa [hs] at k) he
          exact .next (releaseAdvance_keepsPages (hreturned.same (evaluateNotice_same (.refl _))) (by simpa using hs))
      · exact .next (releaseAdvance_keepsPages (.refl s) hs)
    · exact .next (releaseAdvance_keepsPages (.refl s) hs)
  · exact .next (.refl s)

/-- The walk begins during RESTART only, when the store no longer initializes. -/
theorem execRestartWalkBegin_keepsPages (s : State) : PagesKept s (execRestartWalkBegin s) := by
  unfold execRestartWalkBegin
  split
  · next h =>
    obtain ⟨hd, -, -⟩ := h
    have hbegun : KeepsPages s (s.setAlloc { s.alloc with scanner := .restartWalk Config.directoryPages }) := by
      refine setScanner_keepsPages (.refl s) (fun _ => ⟨Nat.le_refl 16, by decide⟩) (fun _ _ _ _ _ _ _ k => nomatch k)
        fun hi hc => ?_
      rw [(hi hc).1] at hd
      cases hd
    exact .next (hbegun.same ((SamePages.refl _).frame (by simp [purgeAll])))
  · exact .next (.refl s)

theorem execRestartWalkStep_keepsPages (s : State) : PagesKept s (execRestartWalkStep s) := by
  unfold execRestartWalkStep
  split
  · next page hs =>
    obtain ⟨hexamined, hscan⟩ := restartExamine_keepsPages hs
    dsimp only
    split
    · next hp =>
      refine .next (setScanner_keepsPages hexamined (fun k => ?_) (fun _ _ _ _ _ _ _ k => nomatch k) fun hi hc => ?_)
      · rw [hscan] at k
        exact ⟨k.1.trans (Nat.le_succ page), hp⟩
      · exact absurd hscan ((hi hc).2.2 page)
    · exact .next (hexamined.trans (restartCompletes_keepsPages hscan))
  · exact .next (.refl s)

/-! ### The host link's line -/

theorem raiseLinkError_same {cause : LinkErrorCause} {tag : Option Byte} (h : SamePages s₀ s) :
    SamePages s₀ (raiseLinkError cause tag s) := raiseEvent_same h

theorem setKept_same {kept : List Byte} (h : SamePages s₀ s) : SamePages s₀ (s.setKept kept) :=
  h.frame ⟨rfl, rfl, rfl, fun _ => rfl⟩

theorem activateLink_same (h : SamePages s₀ s) : SamePages s₀ (activateLink s) := by
  unfold activateLink
  dsimp only
  split
  · split <;> exact h.frame (by simp)
  · exact h

theorem acceptFrame_same {q : Request} (h : SamePages s₀ s) : SamePages s₀ (acceptFrame q s) := by
  unfold acceptFrame
  split
  · exact h.frame (by simp)
  · exact raiseLinkError_same h

theorem receiveBytes_same {steps : Nat} {bytes : List Byte} (h : SamePages s₀ s) :
    SamePages s₀ (receiveBytes steps bytes s) := by
  induction steps generalizing bytes s with
  | zero => exact h
  | succ steps ih =>
    cases bytes with
    | nil => exact h
    | cons b rest =>
      unfold receiveBytes
      split
      · exact ih (setKept_same h)
      · exact ih (raiseLinkError_same (setKept_same h))
      · split
        · exact ih (acceptFrame_same (activateLink_same (setKept_same h)))
        · exact ih (raiseLinkError_same (setKept_same h))

theorem receiveByte_keepsPages (data : Byte) (s : State) : KeepsPages s (receiveByte data s) :=
  (receiveBytes_same (.refl s)).keepsPages

theorem execCharacterTaken_keepsPages (data : Byte) (stopBit : Bool) (s : State) :
    PagesKept s (execCharacterTaken data stopBit s) := by
  unfold execCharacterTaken
  split
  · exact .next (receiveByte_keepsPages data s)
  · exact .next (.refl s)

theorem execInterByteTimeout_keepsPages (s : State) : PagesKept s (execInterByteTimeout s) := by
  unfold execInterByteTimeout
  split
  · exact .next (raiseLinkError_same (setKept_same (.refl s))).keepsPages
  · exact .next (.refl s)

theorem Scanner.markStale_inRange {x : Scanner} (h : x.inRange) : x.markStale.inRange := by
  cases x <;> exact h

/-- A break marks the walk's request stale, and moves no page. -/
theorem execLinkBreak_keepsPages (s : State) : PagesKept s (execLinkBreak s) := by
  unfold execLinkBreak
  dsimp only
  split
  · have hmarked : KeepsPages s (s.setAlloc { s.alloc with scanner := s.alloc.scanner.markStale }) := by
      refine setScanner_keepsPages (.refl s) Scanner.markStale_inRange (fun hw r page n m tag stale k => ?_)
        fun hi hc page k => ?_
      · cases hs : s.alloc.scanner <;> rw [hs] at k <;> cases k
        exact hw _ _ _ _ _ _ hs
      · cases hs : s.alloc.scanner <;> rw [hs] at k <;> cases k
        exact (hi hc).2.2 page hs
    exact .next (hmarked.same ((SamePages.refl _).frame ⟨rfl, rfl, rfl, fun _ => rfl⟩))
  · exact .next (setKept_same (.refl s)).keepsPages

theorem execTransmitFrameEnd_keepsPages (s : State) : PagesKept s (execTransmitFrameEnd s) := by
  unfold execTransmitFrameEnd
  split
  · exact .next ((SamePages.refl s).frame (by simp)).keepsPages
  · exact .next (.refl s)

/-! ### Requests -/

theorem answer_same {tag : Byte} {status : Status} {body : List Byte} (h : SamePages s₀ s) :
    SamePages s₀ (answer tag status body s) := makeReply_same h

theorem answer_keepsPages {tag : Byte} {status : Status} {body : List Byte} (h : KeepsPages s₀ s) :
    KeepsPages s₀ (answer tag status body s) := h.same (answer_same (.refl s))

theorem taken_same (rest : List Request) (s : State) : SamePages s (s.taken rest) :=
  (SamePages.refl s).frame ⟨rfl, rfl, rfl, fun _ => rfl⟩

/-- A request command keeps the pages where its owner does; in INIT the owner of most kinds is not asked (R183). -/
theorem serve_keepsPages {kind tag : Byte} {body : List Byte} {owner : State → State} (s : State)
    (howner : ∀ t, (answeredInInit kind = false → t.device ≠ .init) → KeepsPages t (owner t)) :
    PagesKept s (.next (serve kind tag body owner s)) := by
  refine .next ?_
  unfold serve
  split
  · next t ht =>
    obtain ⟨rest, -, -, rfl⟩ := takeRequest_some ht
    have h := (taken_same rest s).keepsPages
    unfold dispatch
    split
    · exact answer_keepsPages h
    · split
      · exact answer_keepsPages h
      · next hd => exact h.trans (howner _ fun hk hi => hd ⟨hi, hk⟩)
  · exact .refl s

theorem execUnknownKind_keepsPages (kind tag : Byte) (body : List Byte) (s : State) :
    PagesKept s (execUnknownKind kind tag body s) := by
  unfold execUnknownKind
  split
  · next t _ ht =>
    obtain ⟨rest, -, -, rfl⟩ := takeRequest_some ht
    exact .next (answer_same (taken_same rest s)).keepsPages
  · exact .next (.refl s)

/-- Outside INIT the store does not initialize, and the device may change its state. -/
theorem setDevice_keepsPages {x : DeviceState} (hd : s.device ≠ .init) : KeepsPages s (s.setDevice x) := by
  refine ⟨fun k => k.of_eq rfl rfl rfl rfl, fun k => ?_⟩
  obtain ⟨htotal, hcap, hwalk, hsweep, hinit⟩ := (State.reservationsSum_iff s).1 k
  exact (State.reservationsSum_iff _).2 ⟨htotal, hcap, hwalk, hsweep, fun hc => absurd (hinit hc).1 hd⟩

theorem abandonRelease_keepsPages (h : KeepsPages s₀ s) : KeepsPages s₀ (abandonRelease s) := by
  unfold abandonRelease
  split
  · exact (stopScanner_keepsPages h).same (makeReply_same (.refl _))
  · exact h

theorem setRestart_same {x : Option RunningRestart} (h : SamePages s₀ s) : SamePages s₀ (s.setRestart x) :=
  h.frame (by simp)

theorem haltPorts_same (h : SamePages s₀ s) : SamePages s₀ (haltPorts s) := h.frame (by simp [haltPorts])

theorem beginRestart_keepsPages {tag : Byte} (hd : s.device ≠ .init) : KeepsPages s (beginRestart tag s) := by
  have hheld : SamePages s (s.setLink { s.link with engine := .held }) := (SamePages.refl s).frame (by simp)
  have hrestarting := hheld.keepsPages.trans (setDevice_keepsPages (x := .restarting) hd)
  have hserved := hrestarting.same (setRestart_same (x := some ⟨tag, false⟩) (.refl _))
  exact (abandonRelease_keepsPages hserved).same (closeWindows_same (haltPorts_same (.refl _)))

theorem setNotice_same {tag : Byte} {threshold : Nat} (s : State) : SamePages s (setNotice tag threshold s) := by
  unfold setNotice
  dsimp only
  split
  · exact answer_same (evaluateNotice_same ((SamePages.refl s).accounts rfl fun _ => Iff.rfl))
  · exact answer_same (.refl s)

theorem readRetired_same {tag : Byte} {offset : Nat} (s : State) : SamePages s (readRetired tag offset s) := by
  unfold readRetired
  dsimp only
  split <;> exact answer_same (.refl s)

theorem withRegion_keepsPages {tag : Byte} {body : List Byte} {length : Nat} {f : RegionId → State → State}
    (hf : ∀ r, KeepsPages s (f r s)) : KeepsPages s (withRegion tag body length f s) := by
  unfold withRegion
  split
  · exact answer_keepsPages (.refl s)
  · exact hf _

theorem defineRegion_same {tag : Byte} {body : List Byte} {r : RegionId} (s : State) :
    SamePages s (defineRegion tag body r s) := by
  unfold defineRegion
  dsimp only
  split
  · next hs =>
    split
    · exact answer_same (.refl s)
    · refine answer_same ((SamePages.refl s).region (fun k => ?_) fun k => ?_)
      · rcases hs with hs | hs <;> simp [Region.capturing, hs] at k
      · rcases hs with hs | hs <;> simp [hs] at k
  · exact answer_same (.refl s)

theorem notifyCapturing_keepsPages {r : RegionId} (h : KeepsPages s₀ s) : KeepsPages s₀ (notifyCapturing r s) := by
  unfold notifyCapturing
  split
  · exact capturingNotice_keepsPages h
  · exact h

theorem armRegion_keepsPages {tag : Byte} {r : RegionId} (hd : s.device ≠ .init) : KeepsPages s (armRegion tag r s) := by
  unfold armRegion
  dsimp only
  split
  · exact answer_keepsPages (.refl s)
  · next hs =>
    split
    · exact answer_keepsPages (.refl s)
    · split
      · exact answer_keepsPages (.refl s)
      · next t ht =>
        have harmed := arm_keepsPages (x := (t.region r).armedRecord) ht hd (not_not.1 hs) rfl
        exact (notifyCapturing_keepsPages harmed).same (answer_same (storeGrant_same (.refl _)))

theorem triggerRegion_same {tag : Byte} {r : RegionId} (s : State) : SamePages s (triggerRegion tag r s) := by
  unfold triggerRegion
  dsimp only
  split
  · next hs =>
    exact answer_same (raiseEvent_same ((SamePages.refl s).region (fun _ => rfl) fun k => by rw [hs] at k; cases k))
  · split
    · exact answer_same (.refl s)
    · exact answer_same (.refl s)

theorem stopRequest_keepsPages {tag : Byte} {r : RegionId} (s : State) : KeepsPages s (stopRequest tag r s) := by
  unfold stopRequest
  dsimp only
  split
  · next hc => exact answer_keepsPages (stopRegion_keepsPages (.refl s) (Region.capturing_not_releasing hc))
  · split
    · exact answer_keepsPages (.refl s)
    · exact answer_keepsPages (.refl s)

/-- A RELEASE accepted leaves the region RELEASING and walks from page 16. -/
theorem beginRelease_keepsPages {tag : Byte} {r : RegionId} (hc : (s.region r).capturing = false) :
    KeepsPages s (beginRelease tag r s) := by
  have hreleasing : SamePages s ((s.setCache (s.cache.purgeRegion r)).setRegion r
      { s.region r with state := .releasing }) :=
    SamePages.region ((SamePages.refl s).frame (by simp)) (fun k => absurd k (Bool.eq_false_iff.1 hc)) fun _ => rfl
  refine setScanner_keepsPages hreleasing.keepsPages (fun _ => ⟨Nat.le_refl 16, by decide⟩) ?_ fun _ _ _ k => nomatch k
  rintro - q _ _ _ _ _ ⟨⟩
  simp

theorem releaseRegion_keepsPages {tag : Byte} {r : RegionId} (s : State) : KeepsPages s (releaseRegion tag r s) := by
  unfold releaseRegion
  dsimp only
  split
  · exact answer_keepsPages (.refl s)
  · split
    · exact answer_keepsPages (.refl s)
    · split
      · next hs =>
        split
        · exact answer_keepsPages (.refl s)
        · exact beginRelease_keepsPages (by rcases hs with hs | hs <;> simp [Region.capturing, hs])
      · exact answer_keepsPages (.refl s)

theorem setMask_same {r : RegionId} {mask : BitVec 5} (h : SamePages s₀ s) : SamePages s₀ (setMask r mask s) := by
  have hmask : SamePages s₀ (s.setRegion r { s.region r with eventMask := mask }) := h.regionState rfl
  rw [setMask_eq]
  exact hmask.frame (by simp)

theorem setEventsRegion_same {tag : Byte} {body : List Byte} {r : RegionId} (s : State) :
    SamePages s (setEventsRegion tag body r s) := by
  unfold setEventsRegion
  dsimp only
  split
  · exact answer_same (setMask_same (.refl s))
  · exact answer_same (.refl s)

theorem setBoundPort_same {r : RegionId} {p : Option PortId} (h : SamePages s₀ s) : SamePages s₀ (setBoundPort r p s) :=
  h.regionState rfl

theorem moveBinding_same {p : PortId} {target : Option RegionId} (s : State) : SamePages s (moveBinding p target s) := by
  have hleft : SamePages s (match (s.port p).binding with
      | some r => if target = some r then s else setBoundPort r none s
      | none => s) := by
    split
    · split
      · exact .refl s
      · exact setBoundPort_same (.refl s)
    · exact .refl s
  unfold moveBinding
  cases target with
  | none => exact hleft
  | some r => exact setBoundPort_same hleft

theorem bindAt_same {tag : Byte} {body : List Byte} (s : State) : SamePages s (bindAt tag body s) := by
  unfold bindAt
  dsimp only
  split
  · split
    · exact answer_same (.refl s)
    · split
      · exact answer_same (.refl s)
      · exact answer_same (setPort_same (moveBinding_same s))
  · exact answer_same (.refl s)

theorem queryPort_same {tag : Byte} {body : List Byte} (s : State) : SamePages s (queryPort tag body s) := by
  unfold queryPort
  split <;> exact answer_same (.refl s)

theorem openAt_same {tag : Byte} {body : List Byte} (s : State) : SamePages s (openAt tag body s) := by
  unfold openAt
  dsimp only
  split
  · split
    · exact answer_same (.refl s)
    · split
      · exact answer_same (.refl s)
      · exact answer_same (setWindow_same (.refl s))
  · exact answer_same (.refl s)

theorem fetchAt_same {tag : Byte} {body : List Byte} (s : State) : SamePages s (fetchAt tag body s) := by
  unfold fetchAt
  dsimp only
  split
  · exact answer_same (.refl s)
  · split
    · exact answer_same (.refl s)
    · exact storeGrant_same (fetchNext_same (.refl s))

theorem closeAt_same {tag : Byte} {body : List Byte} (s : State) : SamePages s (closeAt tag body s) := by
  unfold closeAt
  dsimp only
  split
  · exact answer_same (.refl s)
  · split
    · exact answer_same (.refl s)
    · exact answer_same (.refl s)
    · exact setWindow_same (.refl s)
    · exact answer_same (storeGrant_same (becomeClosed_same (.refl s)))

theorem queryWindow_same {tag : Byte} {body : List Byte} (s : State) : SamePages s (queryWindow tag body s) := by
  unfold queryWindow
  split <;> exact answer_same (.refl s)

/-! ### Every command -/

/-- Every command keeps each data page in one place, and the reservations backed. -/
theorem exec_keepsPages (c : Instr) (s : State) : PagesKept s (exec c s) := by
  cases c with
  | hardReset cause rate mode => exact execHardReset_keepsPages cause rate mode s
  | sweepStepComplete words => exact execSweepStepComplete_keepsPages words s
  | directoryClearComplete => exact execDirectoryClearComplete_keepsPages s
  | byteStrobe p data sor mrk => exact .next (takePortByte_keepsPages p data sor mrk s)
  | recordWriteComplete => exact execRecordWriteComplete_keepsPages s
  | directoryReadComplete word => exact execDirectoryReadComplete_keepsPages word s
  | directoryWriteComplete word => exact execDirectoryWriteComplete_keepsPages word s
  | recordReadComplete words => exact execRecordReadComplete_keepsPages words s
  | releaseWalkStep => exact execReleaseWalkStep_keepsPages s
  | restartWalkBegin => exact execRestartWalkBegin_keepsPages s
  | restartWalkStep => exact execRestartWalkStep_keepsPages s
  | frameReceived data => exact .next (receiveByte_keepsPages data s)
  | interByteTimeout => exact execInterByteTimeout_keepsPages s
  | linkBreak => exact execLinkBreak_keepsPages s
  | transmitFrameEnd => exact execTransmitFrameEnd_keepsPages s
  | unknownKind kind tag body => exact execUnknownKind_keepsPages kind tag body s
  | identify tag body => exact serve_keepsPages s fun t _ => answer_keepsPages (.refl t)
  | status tag body => exact serve_keepsPages s fun t _ => answer_keepsPages (.refl t)
  | restart tag body => exact serve_keepsPages s fun _ hd => beginRestart_keepsPages (hd rfl)
  | setPoolNotice tag body => exact serve_keepsPages s fun t _ => (setNotice_same t).keepsPages
  | retired tag body => exact serve_keepsPages s fun t _ => (readRetired_same t).keepsPages
  | define tag body => exact serve_keepsPages s fun t _ => withRegion_keepsPages fun _ => (defineRegion_same t).keepsPages
  | arm tag body => exact serve_keepsPages s fun _ hd => withRegion_keepsPages fun _ => armRegion_keepsPages (hd rfl)
  | trigger tag body => exact serve_keepsPages s fun t _ => withRegion_keepsPages fun _ => (triggerRegion_same t).keepsPages
  | stop tag body => exact serve_keepsPages s fun t _ => withRegion_keepsPages fun _ => stopRequest_keepsPages t
  | release tag body => exact serve_keepsPages s fun t _ => withRegion_keepsPages fun _ => releaseRegion_keepsPages t
  | query tag body => exact serve_keepsPages s fun t _ => withRegion_keepsPages fun _ => answer_keepsPages (.refl t)
  | setEvents tag body =>
    exact serve_keepsPages s fun t _ => withRegion_keepsPages fun _ => (setEventsRegion_same t).keepsPages
  | bindPort tag body => exact serve_keepsPages s fun t _ => (bindAt_same t).keepsPages
  | portQuery tag body => exact serve_keepsPages s fun t _ => (queryPort_same t).keepsPages
  | openWindow tag body => exact serve_keepsPages s fun t _ => (openAt_same t).keepsPages
  | fetch tag body => exact serve_keepsPages s fun t _ => (fetchAt_same t).keepsPages
  | closeWindow tag body => exact serve_keepsPages s fun t _ => (closeAt_same t).keepsPages
  | windowQuery tag body => exact serve_keepsPages s fun t _ => (queryWindow_same t).keepsPages
  | characterTaken data stopBit => exact execCharacterTaken_keepsPages data stopBit s

/-- A step takes the front command off the queue, which neither invariant reads, and runs it. -/
theorem step_keepsPages {s t : State} (h : step s = .next t) : KeepsPages s t := by
  unfold step at h
  split at h
  · obtain rfl := Host.Outcome.next.inj h
    exact .refl s
  · next c rest _ =>
    have hrest : SamePages s { s with pending := rest } := (SamePages.refl s).frame ⟨rfl, rfl, rfl, fun _ => rfl⟩
    exact hrest.keepsPages.trans (exec_keepsPages c _ t h)

end Sys2Proof.Machine

open Sys2Proof Sys2Proof.Machine

/-- Settles O56: no operation but a claim, a walk's return and the two builds of the pool moves a page. -/
theorem stepsKeepPagesInOnePlace : Obligations.StepsKeepPagesInOnePlace :=
  fun _ _ hplaces h => (step_keepsPages h).places hplaces

/-- Settles O57: a reservation is made, used and returned together with the total, by a capturing region only. -/
theorem stepsKeepReservationsBacked : Obligations.StepsKeepReservationsBacked :=
  fun _ _ hbacked h => (step_keepsPages h).backed hbacked
end

section
/-! SUPPORT. Completion reports (3.5, R54, R57) and the fault cascade of a region (R62, R64, R95, R132, R148). -/

namespace Sys2Proof.Machine

/-! ### Completions (R54, R57) -/

section
variable {s : State} {r : RegionId}

/-- A region whose committed count a completion has raised. -/
def Region.counted (g : Region) : Region := { g with committed := g.committed + 1 }

theorem completionReport_capturing (h : (s.region r).capturing = true) :
    completionReport r s = stopChecks r (markCheck r (s.setRegion r (s.region r).counted)) :=
  if_pos h

theorem completionReport_ended (h : (s.region r).state = .stopped ∨ (s.region r).state = .faulted) :
    completionReport r s = raiseStopped r (s.setRegion r (s.region r).counted) := by
  have hc : ¬(s.region r).capturing = true := by rcases h with h | h <;> simp [Region.capturing, h]
  exact (if_neg hc).trans (if_pos h)

/-- A region in state TRIGGERED has reached its post count when that many records follow its trigger (R54 step 2). -/
def Region.atPostCount (g : Region) : Prop :=
  g.state = .triggered ∧ ∃ trig, g.trigger = some trig ∧ trig.seq + g.postCount = g.committed

theorem Region.atPostCount_iff (g : Region) :
    g.state = .triggered ∧ g.triggerSeq.map (· + g.postCount) = some g.committed ↔ g.atPostCount := by
  cases ht : g.trigger <;> simp [Region.atPostCount, Region.triggerSeq, ht]

theorem stopChecks_postCount (h : (s.region r).atPostCount) : stopChecks r s = stopRegion r .postCount s :=
  if_pos ((Region.atPostCount_iff _).2 h)

theorem stopChecks_limit (hp : ¬(s.region r).atPostCount) (hl : (s.region r).committed = 281474976710655) :
    stopChecks r s = stopRegion r .limit s :=
  (if_neg (mt (Region.atPostCount_iff _).1 hp)).trans (if_pos hl)

theorem stopChecks_goesOn (hp : ¬(s.region r).atPostCount) (hl : (s.region r).committed ≠ 281474976710655) :
    stopChecks r s = s :=
  (if_neg (mt (Region.atPostCount_iff _).1 hp)).trans (if_neg hl)

end

/-! ### The purge of a region's entries (R95) -/

theorem Cache.purgeRegion_get (c : Cache) (r : RegionId) (i : Fin 24) (e : CacheEntry) :
    (c.purgeRegion r).entries.get i = some e ↔ c.entries.get i = some e ∧ e.region ≠ r := by
  simp only [Cache.purgeRegion, vector_get_map]
  cases c.entries.get i with
  | none => simp
  | some held =>
    by_cases hr : held.region = r
    · simp only [Option.map_some, hr, if_true, Option.some.injEq]
      exact ⟨nofun, fun ⟨he, hne⟩ => absurd (he ▸ hr) hne⟩
    · simp only [Option.map_some, Option.some.injEq, hr, if_false]
      exact ⟨fun he => ⟨he, he ▸ hr⟩, fun ⟨he, _⟩ => he⟩

/-! ### The fault notice to a fetch (R62 step 6, R132) -/

section
variable {w : Window} {f : Fetch} {r : RegionId}

theorem Window.faultNotice_marks (hf : w.fetch = some f) (hr : w.region = r) (he : f.endCause = none) :
    w.faultNotice r = { w with fetch := some { f with endCause := some .fault } } := by
  simp [Window.faultNotice, hf, hr, he]

theorem Window.faultNotice_leaves (h : w.fetch = none ∨ w.region ≠ r ∨ ∃ f, w.fetch = some f ∧ f.endCause ≠ none) :
    w.faultNotice r = w := by
  unfold Window.faultNotice
  split
  · next f hf =>
    refine if_neg fun ⟨hr, he⟩ => ?_
    rcases h with h | h | ⟨f', hf', he'⟩
    · exact absurd (h.symm.trans hf) nofun
    · exact h hr
    · obtain rfl := Option.some.inj (hf.symm.trans hf')
      exact he' he
  · rfl

end

/-! ### The cascade (R62) -/

/-- The record of a region that its fault has left (R62 step 1). -/
def Region.faulted (g : Region) (r : RegionId) : Region :=
  { g with state := .faulted, stopCause := some .fault, faultPage := some r.val, suspect := true }

/-- The cascade without the two events that end it: `faultReport_eq` ties it to the report. -/
def faultQuiet (r : RegionId) (s : State) : State :=
  let t := returnReservation r (s.setRegion r ((s.region r).faulted r))
  (stopRegionWriter r (t.setCache (s.cache.purgeRegion r))).setWindows (s.windows.map (Window.faultNotice r))

section
variable (r : RegionId) (s : State)

theorem faultQuiet_region (q : RegionId) :
    (faultQuiet r s).region q = if q = r then (s.region r).faulted r else s.region q := by
  simp [faultQuiet]

theorem faultQuiet_port (p : PortId) :
    (faultQuiet r s).port p = if (s.region r).boundPort = some p then (s.port p).stopped else s.port p := by
  simp [faultQuiet, stopRegionWriter_port, Region.faulted]

theorem faultQuiet_window (w : WindowId) : (faultQuiet r s).window w = (s.window w).faultNotice r :=
  vector_get_map (Window.faultNotice r) s.windows w

theorem faultQuiet_alloc :
    (∀ q, (faultQuiet r s).reservation q = if q = r then 0 else s.reservation q) ∧
    (∀ q, (faultQuiet r s).owned q = s.owned q) ∧
    (faultQuiet r s).alloc.reservedTotal = s.alloc.reservedTotal - s.reservation r ∧
    (faultQuiet r s).alloc.pool = s.alloc.pool ∧ (faultQuiet r s).alloc.table = s.alloc.table := by
  obtain ⟨hres, hother, htotal⟩ := returnReservation_spec r (s.setRegion r ((s.region r).faulted r))
  simp only [faultQuiet, State.setWindows_reservation, State.setWindows_owned, State.setWindows_alloc, stopRegionWriter_frame,
    State.setCache_reservation, State.setCache_owned, State.setCache_alloc, returnReservation_ledger, htotal]
  refine ⟨fun q => ?_, fun _ => rfl, rfl, rfl, rfl⟩
  split
  · next h => rw [h, hres]
  · next h => rw [hother q h]; rfl

end

section
variable {r : RegionId} {s : State}

/-- The fault of a capturing or STOPPED region: the cascade, then MEDIA_ERROR, then STOPPED. -/
theorem faultReport_eq (h : (s.region r).capturing = true ∨ (s.region r).state = .stopped) : faultReport r s =
    raiseEvent (.stopped r) (.stopped (some .fault) (s.region r).committed (s.region r).triggerSeq)
      (raiseDirectoryError r (faultQuiet r s)) := by
  have hcascade : faultReport r s = raiseStopped r (raiseDirectoryError r (faultQuiet r s)) := by
    simp only [faultReport, if_pos h, faultQuiet, Region.faulted, stopRegionWriter_frame, State.setCache_windows,
      returnReservation_frame, State.setRegion_windows, State.setRegion_cache]
  rw [hcascade]
  simp [raiseStopped, faultQuiet_region, Region.faulted, Region.triggerSeq]

theorem faultReport_faulted (h : (s.region r).state = .faulted) : faultReport r s = raiseDirectoryError r s := by
  have hc : ¬((s.region r).capturing = true ∨ (s.region r).state = .stopped) := by simp [Region.capturing, h]
  exact (if_neg hc).trans (if_pos h)

/-- The two events leave every block to the cascade. -/
theorem faultReport_blocks (h : (s.region r).capturing = true ∨ (s.region r).state = .stopped) :
    (faultReport r s).alloc = (faultQuiet r s).alloc ∧ (faultReport r s).cache = s.cache.purgeRegion r ∧
    (faultReport r s).regions = (faultQuiet r s).regions ∧ (faultReport r s).ports = (faultQuiet r s).ports ∧
    (faultReport r s).windows = (faultQuiet r s).windows ∧ (faultReport r s).store = s.store := by
  rw [faultReport_eq h]
  simp [faultQuiet]

/-- MEDIA_ERROR is reported unless bit 4 of the region's event mask names it, and the raise of STOPPED keeps the report. -/
theorem faultReport_reports_mediaError (h : (s.region r).capturing = true ∨ (s.region r).state = .stopped)
    (hm : (s.region r).eventMask.getLsbD 4 = false) :
    (faultReport r s).reports (.mediaError r) (.mediaError r.val .directory none) := by
  rw [faultReport_eq h]
  refine raiseEvent_keeps nofun (raiseEvent_reports ?_)
  simpa [masked, EventKey.maskBit, faultQuiet_region, Region.faulted] using hm

/-- STOPPED is reported unless bit 1 of the region's event mask names it. -/
theorem faultReport_reports_stopped (h : (s.region r).capturing = true ∨ (s.region r).state = .stopped)
    (hm : (s.region r).eventMask.getLsbD 1 = false) : (faultReport r s).reports (.stopped r)
      (.stopped (some .fault) (s.region r).committed (s.region r).triggerSeq) := by
  rw [faultReport_eq h]
  refine raiseEvent_reports ?_
  simpa [masked, EventKey.maskBit, faultQuiet_region, Region.faulted] using hm

end

end Sys2Proof.Machine

open Sys2Proof Sys2Proof.Machine

/-- Settles O22: the report of a capturing region by the two checks that follow the mark, each in the order of R54. -/
theorem completionsCountAndStop : Obligations.CompletionsCountAndStop := by
  intro s r g c t marked atPost
  have hmark : markCheck r t = marked := by
    have ht : t.region r = g.counted := by simp [t, g, c, Region.counted]
    simp only [markCheck, ht]
    rfl
  have hregion : marked.region r = g.counted := by rw [← hmark]; simp [t, g, c, Region.counted]
  have hreport : g.capturing = true → completionReport r s = stopChecks r marked := fun h =>
    hmark ▸ completionReport_capturing h
  have hpost : (marked.region r).atPostCount ↔ atPost := by rw [hregion]; rfl
  have hcount : (marked.region r).committed = c := by rw [hregion]; rfl
  refine ⟨fun h hp => ?_, fun h hp hl => ?_, fun h hp hl => ?_, fun h => ?_⟩
  · rw [hreport h, stopChecks_postCount (hpost.2 hp)]
  · rw [hreport h, stopChecks_limit (mt hpost.1 hp) (hcount.trans hl)]
  · rw [hreport h, stopChecks_goesOn (mt hpost.1 hp) (hcount ▸ hl)]
  · rw [completionReport_ended h]
    simp [raiseStopped, Region.counted, Region.triggerSeq, t, g, c]

/-- Settles O28: the cascade in its order, then what each block keeps of it, the two raises leaving the blocks alone. -/
theorem faultCascade : Obligations.FaultCascade := by
  intro s r g t left returned purged notified marked
  have hreturned : returned = returnReservation r left := rfl
  have hbound : (purged.region r).boundPort = g.boundPort := by
    change (returned.region r).boundPort = g.boundPort
    rw [hreturned]; simp [left, g]
  have hnotified : notified = stopRegionWriter r purged := by
    simp only [notified, stopRegionWriter, hbound]
    cases g.boundPort <;> rfl
  have hmarked : marked = faultQuiet r s := by
    simp only [marked, hnotified, purged, hreturned]
    rfl
  refine ⟨fun h => ?_, fun h => faultReport_faulted h, fun h => ?_⟩
  · rw [hmarked]; exact faultReport_eq h
  obtain ⟨halloc, hcache, hregions, hports, hwindows, hstore⟩ := faultReport_blocks h
  obtain ⟨hres, howned, htotal, hpool, htable⟩ := faultQuiet_alloc r s
  have hregion : ∀ q, t.region q = (faultQuiet r s).region q := fun q => congrArg (·.get q) hregions
  have hport : ∀ p, t.port p = (faultQuiet r s).port p := fun p => congrArg (·.get p) hports
  have hwindow : ∀ w, t.window w = (s.window w).faultNotice r := fun w =>
    (congrArg (·.get w) hwindows).trans (faultQuiet_window r s w)
  have hreservation : ∀ q, t.reservation q = if q = r then 0 else s.reservation q := fun q =>
    (congrArg (·.reservations.get q) halloc).trans (hres q)
  refine ⟨?_, fun q hq => ?_, ?_, fun q hq => ?_, fun q => ?_, ?_, ?_, ?_, fun i e => ?_, ?_, ?_, ?_, fun p hp => ?_,
    fun p hp => ?_, fun w f hf hr he => ?_, fun w hw => ?_, faultReport_reports_mediaError h, faultReport_reports_stopped h,
    hstore⟩
  · rw [hregion, faultQuiet_region, if_pos rfl]; rfl
  · rw [hregion, faultQuiet_region, if_neg hq]
  · rw [hreservation, if_pos rfl]
  · rw [hreservation, if_neg hq]
  · exact (congrArg (·.ownedPages.get q) halloc).trans (howned q)
  · exact (congrArg (·.reservedTotal) halloc).trans htotal
  · exact (congrArg (·.pool) halloc).trans hpool
  · exact (congrArg (·.table) halloc).trans htable
  · rw [hcache]; exact Cache.purgeRegion_get s.cache r i e
  · rw [hcache]; rfl
  · rw [hcache]; rfl
  · rw [hcache]; rfl
  · rw [hport, faultQuiet_port, if_pos hp, stopNotice, State.setPort_port, if_pos rfl]
  · rw [hport, faultQuiet_port, if_neg hp]
  · rw [hwindow]; exact Window.faultNotice_marks hf hr he
  · rw [hwindow]; exact Window.faultNotice_leaves hw
end

section
/-! SUPPORT. Which requests name a region, a port or a window, and the answer to a number out of range (R43, R106, R122, R184). -/

namespace Sys2Proof.Machine

variable {s : State} {tag b : Byte} {more : List Byte} {length : Nat} {f : RegionId → State → State}

theorem withRegion_inRange {r : RegionId} (hb : b.toNat = r.val) : withRegion tag (b :: more) length f s = f r s := by
  simp only [withRegion, field_head, hb, regionArg_val]

theorem withRegion_outOfRange (hb : 16 ≤ b.toNat) :
    withRegion tag (b :: more) length f s = refuse tag .badArg length b s := by
  simp only [withRegion, field_head, regionArg_none hb]
  rfl

/-- A request whose dispatch tests pass and whose owner refuses its number. -/
theorem serve_badNumber {kind : Byte} {rest : List Request} {owner : State → State}
    (h : Requested s kind tag (b :: more) rest) (hl : requestBodyLength kind = some (b :: more).length)
    (howner : ∀ t, owner t = refuse tag .badArg length b t) : serve kind tag (b :: more) owner s =
      makeReply tag false .badArg (b :: List.replicate (length - 1) 0) (s.taken rest) :=
  (serve_requested h hl).trans (howner _)

/-- The region requests: KIND, body length and reply length (11.3, 11.5). -/
def regionRequests : List (Byte × Nat × Nat) :=
  [(0x10, 14, 16), (0x11, 1, 5), (0x12, 1, 9), (0x13, 1, 15), (0x14, 1, 5), (0x15, 1, 50), (0x16, 2, 2)]

/-- The port and window requests: KIND, body length and reply length (11.3, 11.5); OPEN answers by a test of its own (R123). -/
def portAndWindowRequests : List (Byte × Nat × Nat) :=
  [(0x20, 3, 3), (0x21, 1, 46), (0x31, 3, 16), (0x32, 1, 8), (0x33, 1, 31)]

/-- A region request is served by an owner that first looks at its region number (R43). -/
theorem exec_regionRequest {c : Instr} {q : Request} {n : Nat} (hc : c.request = some q)
    (hk : (q.kind, n, length) ∈ regionRequests) : requestBodyLength q.kind = some n ∧
      ∃ f, ∀ s, exec c s = .next (serve q.kind q.tag q.body (withRegion q.tag q.body length f) s) := by
  cases c with
  | define tag body | arm tag body | trigger tag body | stop tag body | release tag body | query tag body
  | setEvents tag body =>
    obtain rfl := Option.some.inj hc
    obtain ⟨rfl, rfl⟩ : n = _ ∧ length = _ := by simpa [regionRequests] using hk
    exact ⟨rfl, _, fun _ => rfl⟩
  | _ => cases hc <;> simp [regionRequests] at hk

/-- A port or window request is served by an owner that refuses a number out of range (R106, R122). -/
theorem exec_portOrWindowRequest {c : Instr} {q : Request} {n : Nat} (hc : c.request = some q)
    (hk : (q.kind, n, length) ∈ portAndWindowRequests) : requestBodyLength q.kind = some n ∧
      ∃ owner : State → State, (∀ s, exec c s = .next (serve q.kind q.tag q.body owner s)) ∧
        ∀ b more, q.body = b :: more → 4 ≤ b.toNat → ∀ t, owner t = refuse q.tag .badArg length b t := by
  cases c with
  | bindPort tag body | portQuery tag body | fetch tag body | closeWindow tag body | windowQuery tag body =>
    obtain rfl := Option.some.inj hc
    obtain ⟨rfl, rfl⟩ : n = _ ∧ length = _ := by simpa [portAndWindowRequests] using hk
    refine ⟨rfl, _, fun _ => rfl, fun b more hb hle t => ?_⟩
    obtain rfl : body = _ := hb
    simp only [bindAt, queryPort, fetchAt, closeAt, queryWindow, field_head, portArg_none hle, windowArg_none hle]
    rfl
  | _ => cases hc <;> simp [portAndWindowRequests] at hk

end Sys2Proof.Machine

open Sys2Proof Sys2Proof.Machine

/-- Settles O40: the owner's first test is that of its number, for every region request and for every port and window request. -/
theorem numbersOutOfRangeAreBadArguments : Obligations.NumbersOutOfRangeAreBadArguments := by
  intro s c q rest b more hc hr hb
  obtain ⟨kind, tag, body⟩ := q
  obtain rfl : body = b :: more := hb
  refine ⟨fun length n hk hn hle => ?_, fun length n hk hn hle => ?_⟩
  · obtain ⟨hlength, f, hexec⟩ := exec_regionRequest hc hk
    rw [hexec, serve_badNumber hr (hn ▸ hlength) fun t => withRegion_outOfRange hle]
  · obtain ⟨hlength, owner, hexec, hrefuse⟩ := exec_portOrWindowRequest hc hk
    rw [hexec, serve_badNumber hr (hn ▸ hlength) (hrefuse b more rfl hle)]
end

section
/-! SUPPORT. The region requests DEFINE, ARM, TRIGGER, STOP and RELEASE (chapter 3): each as its owner takes it, by the state of
the region. -/

namespace Sys2Proof.Machine

/-! ### A region request reaches the region controller (R43) -/

section
variable {s : State} {tag b : Byte} {body : List Byte} {rest : List Request} {r : RegionId}

theorem exec_define_requested (hb : b.toNat = r.val) (hl : body.length = 13) (h : Requested s 0x10 tag (b :: body) rest) :
    exec (.define tag (b :: body)) s = .next (defineRegion tag (b :: body) r (s.taken rest)) := by
  have hlength : requestBodyLength 0x10 = some (b :: body).length := by rw [List.length_cons, hl]; rfl
  simp only [exec, execDefine, serve_requested h hlength, withRegion_inRange hb]

theorem exec_arm_requested (hb : b.toNat = r.val) (h : Requested s 0x11 tag [b] rest) :
    exec (.arm tag [b]) s = .next (armRegion tag r (s.taken rest)) := by
  simp only [exec, execArm, serve_requested h rfl, withRegion_inRange hb]

theorem exec_trigger_requested (hb : b.toNat = r.val) (h : Requested s 0x12 tag [b] rest) :
    exec (.trigger tag [b]) s = .next (triggerRegion tag r (s.taken rest)) := by
  simp only [exec, execTrigger, serve_requested h rfl, withRegion_inRange hb]

theorem exec_stop_requested (hb : b.toNat = r.val) (h : Requested s 0x13 tag [b] rest) :
    exec (.stop tag [b]) s = .next (stopRequest tag r (s.taken rest)) := by
  simp only [exec, execStop, serve_requested h rfl, withRegion_inRange hb]

theorem exec_release_requested (hb : b.toNat = r.val) (h : Requested s 0x14 tag [b] rest) :
    exec (.release tag [b]) s = .next (releaseRegion tag r (s.taken rest)) := by
  simp only [exec, execRelease, serve_requested h rfl, withRegion_inRange hb]

end

/-! ### The parameters of a DEFINE (R44) -/

/-- The body of a DEFINE request (11.3). -/
def defineRequest (b c policy : Byte) (quota anchor post mark : Nat) : List Byte :=
  [b, c] ++ beBytes 2 quota ++ beBytes 2 anchor ++ beBytes 4 post ++ [policy] ++ beBytes 3 mark

section
variable {b c policy : Byte} {quota anchor post mark : Nat}

@[simp] theorem numberByte_toNat (x : Byte) : numberByte x.toNat = x := by simp [numberByte]

theorem policyArg_toNat (policy : Byte) : policyArg policy.toNat =
    if policy = 0 then some .holdWriter else if policy = 1 then some .breakPin else none := by
  simp only [policyArg, ← BitVec.toNat_inj]
  rfl

theorem policyArg_of_invalid (h : ¬(policy = 0 ∨ policy = 1)) : policyArg policy.toNat = none := by
  obtain ⟨h0, h1⟩ := not_or.1 h
  rw [policyArg_toNat, if_neg h0, if_neg h1]

theorem policyArg_of_valid (h : policy = 0 ∨ policy = 1) :
    policyArg policy.toNat = some (if policy = 0 then .holdWriter else .breakPin) := by
  rcases h with rfl | rfl <;> rfl

/-- The code that a valid policy byte is answered with is that byte. -/
theorem policy_code (h : policy = 0 ∨ policy = 1) :
    (if policy = 0 then PinPolicy.holdWriter else .breakPin).code = policy := by
  rcases h with rfl | rfl <;> rfl

/-- What each field of a DEFINE request reads as. -/
theorem defineRequest_fields (hq : quota < 65536) (ha : anchor < 65536) (hp : post < 4294967296) (hm : mark < 16777216) :
    field (defineRequest b c policy quota anchor post mark) 1 1 = c.toNat ∧
    field (defineRequest b c policy quota anchor post mark) 2 2 = quota ∧
    field (defineRequest b c policy quota anchor post mark) 4 2 = anchor ∧
    field (defineRequest b c policy quota anchor post mark) 6 4 = post ∧
    field (defineRequest b c policy quota anchor post mark) 10 1 = policy.toNat ∧
    field (defineRequest b c policy quota anchor post mark) 11 3 = mark := by
  simp only [defineRequest, List.append_assoc]
  refine ⟨field_byte [b] _ c, field_beBytes [b, c] _ 2 quota hq, ?_, ?_, ?_, ?_⟩
  · simpa using field_beBytes ([b, c] ++ beBytes 2 quota) (beBytes 4 post ++ ([policy] ++ beBytes 3 mark)) 2 anchor ha
  · simpa using field_beBytes ([b, c] ++ beBytes 2 quota ++ beBytes 2 anchor) ([policy] ++ beBytes 3 mark) 4 post hp
  · simpa using field_byte ([b, c] ++ beBytes 2 quota ++ beBytes 2 anchor ++ beBytes 4 post) (beBytes 3 mark) policy
  · simpa using field_beBytes ([b, c] ++ beBytes 2 quota ++ beBytes 2 anchor ++ beBytes 4 post ++ [policy]) [] 3 mark hm

/-- The ranges of R44. -/
def defineInRange (c policy : Byte) (quota anchor post : Nat) : Prop :=
  4 ≤ c.toNat ∧ c.toNat ≤ 12 ∧ 2 ≤ quota ∧ quota ≤ 2048 ∧ anchor + 2 ≤ quota ∧ 1 ≤ post ∧ (policy = 0 ∨ policy = 1)

theorem paramsArg_inRange (hq : quota < 65536) (ha : anchor < 65536) (hp : post < 4294967296) (hm : mark < 16777216)
    (h : defineInRange c policy quota anchor post) : paramsArg (defineRequest b c policy quota anchor post mark) =
      some ⟨c.toNat, quota, anchor, post, if policy = 0 then .holdWriter else .breakPin, mark⟩ := by
  obtain ⟨hc, hquota, hanchor, hpost, hpolicy, hmark⟩ := defineRequest_fields (b := b) (c := c) (policy := policy) hq ha hp hm
  obtain ⟨hc4, hc12, hq2, hqmax, haq, hp1, hvalid⟩ := h
  simp only [paramsArg, hc, hquota, hanchor, hpost, hpolicy, hmark, policyArg_of_valid hvalid]
  exact if_pos ⟨hc4, hc12, hq2, hqmax, haq, hp1, by omega, by omega⟩

theorem paramsArg_outOfRange (hq : quota < 65536) (ha : anchor < 65536) (hp : post < 4294967296) (hm : mark < 16777216)
    (h : ¬defineInRange c policy quota anchor post) : paramsArg (defineRequest b c policy quota anchor post mark) = none := by
  obtain ⟨hc, hquota, hanchor, hpost, hpolicy, hmark⟩ := defineRequest_fields (b := b) (c := c) (policy := policy) hq ha hp hm
  simp only [paramsArg, hc, hquota, hanchor, hpost, hpolicy, hmark]
  by_cases hvalid : policy = 0 ∨ policy = 1
  · rw [policyArg_of_valid hvalid]
    exact if_neg fun ⟨hc4, hc12, hq2, hqmax, haq, hp1, _⟩ => h ⟨hc4, hc12, hq2, hqmax, haq, hp1, hvalid⟩
  · rw [policyArg_of_invalid hvalid]

/-- The reply to a DEFINE carries the fields of the request, then the rpp that the size code gives (R69). -/
theorem defineBody_eq {r : RegionId} (hb : b.toNat = r.val) (h : policy = 0 ∨ policy = 1) (g : Region)
    {p : Params} (hp : p = ⟨c.toNat, quota, anchor, post, if policy = 0 then .holdWriter else .breakPin, mark⟩) :
    defineBody r (g.defined p) p =
      defineRequest b c policy quota anchor post mark ++ beBytes 2 (4096 / 2 ^ c.toNat) := by
  subst hp
  simp only [defineBody, numberByte_of_toNat hb, numberByte_toNat, policy_code h]
  rfl

end

/-! ### DEFINE (R45) -/

section
variable {r : RegionId} {body : List Byte} (tag : Byte) (s : State)

theorem defineRegion_accepts {p : Params} (h : (s.region r).state = .unused ∨ (s.region r).state = .idle)
    (hp : paramsArg body = some p) : defineRegion tag body r s =
      makeReply tag false .ok (defineBody r ((s.region r).defined p) p) (s.setRegion r ((s.region r).defined p)) := by
  simp [defineRegion, h, hp, answer]

theorem defineRegion_badArg (h : (s.region r).state = .unused ∨ (s.region r).state = .idle) (hp : paramsArg body = none) :
    defineRegion tag body r s = refuse tag .badArg 16 (numberField body) s := by
  simp [defineRegion, h, hp]

theorem defineRegion_badState (h : ¬((s.region r).state = .unused ∨ (s.region r).state = .idle)) :
    defineRegion tag body r s = refuse tag .badState 16 (numberField body) s :=
  if_neg h

end

/-! ### ARM (R23, R46, R47) -/

/-- The state with `n` pages reserved for a region that had none (R23): what `reserve` leaves, by `reserve_granted`. -/
def reservedState (r : RegionId) (n : Nat) (s : State) : State :=
  evaluateNotice (s.setAlloc { s.alloc with
    reservations := s.alloc.reservations.set r.val n r.isLt, reservedTotal := s.alloc.reservedTotal + n })

/-- The region armed with its A + 2 pages reserved, before the capturing notice (R47 steps 1 to 3). -/
def armedState (r : RegionId) (s : State) : State :=
  (reservedState r ((s.region r).anchor + 2) s).setRegion r (s.region r).armedRecord

section
variable {s : State} {r : RegionId} {n : Nat}

theorem reserve_granted (h : n ≤ s.alloc.available) : reserve r n s = some (reservedState r n s) := if_pos h

theorem reserve_refused (h : s.alloc.available < n) : reserve r n s = none := if_neg (Nat.not_le.2 h)

@[simp] theorem reservedState_region (q : RegionId) : (reservedState r n s).region q = s.region q := by simp [reservedState]

@[simp] theorem reservedState_port (p : PortId) : (reservedState r n s).port p = s.port p := by simp [reservedState]

/-- Each page reserved is one page fewer available (R22). -/
@[simp] theorem reservedState_available : (reservedState r n s).alloc.available = s.alloc.available - n := by
  simp [reservedState, Allocator.available, Nat.sub_sub]

end

section
variable {r : RegionId} (tag : Byte) (s : State)

theorem notifyCapturing_unbound (h : (s.region r).boundPort = none) :
    notifyCapturing r (armedState r s) = armedState r s := by
  simp [notifyCapturing, armedState, Region.armedRecord, Region.startCapture, h]

theorem notifyCapturing_bound {p : PortId} (h : (s.region r).boundPort = some p) :
    notifyCapturing r (armedState r s) =
      takeHead p ((armedState r s).setPort p { s.port p with writer := .running, fillPage := none, claim := none }) := by
  simp [notifyCapturing, capturingNotice, armedState, Region.armedRecord, Region.startCapture, h]

/-- ARM that passes its tests: the record with its reservation, the capturing notice, the grant and the reply. -/
theorem armRegion_passes (hstate : (s.region r).state = .idle) (hsuspect : (s.region r).suspect = false)
    (hpages : (s.region r).anchor + 2 ≤ s.alloc.available) : armRegion tag r s = makeReply tag false .ok
      (armBody r ((s.region r).anchor + 2) (s.alloc.available - ((s.region r).anchor + 2)))
      (storeGrant (notifyCapturing r (armedState r s))) := by
  simp [armRegion, hstate, hsuspect, reserve_granted hpages, armedState, answer]

theorem armRegion_badState (h : (s.region r).state ≠ .idle) :
    armRegion tag r s = refuse tag .badState 5 (numberByte r.val) s := if_pos h

theorem armRegion_suspect (hstate : (s.region r).state = .idle) (hsuspect : (s.region r).suspect = true) :
    armRegion tag r s = refuse tag .mediaError 5 (numberByte r.val) s :=
  (if_neg (not_not.2 hstate)).trans (if_pos hsuspect)

theorem armRegion_noPages (hstate : (s.region r).state = .idle) (hsuspect : (s.region r).suspect = false)
    (hpages : s.alloc.available < (s.region r).anchor + 2) : armRegion tag r s =
      makeReply tag false .noPages (armBody r ((s.region r).anchor + 2) s.alloc.available) s := by
  simp [armRegion, hstate, hsuspect, reserve_refused hpages, answer]

end

/-! ### TRIGGER (R48, R49) -/

section
variable {r : RegionId} (tag : Byte) (s : State)

theorem triggerRegion_armed (h : (s.region r).state = .armed) : triggerRegion tag r s =
    makeReply tag false .ok ([numberByte r.val, 2] ++ beBytes 6 (s.region r).committed ++ [0])
      (raiseEvent (.triggered r) (.triggered (s.region r).committed .host)
        (s.setRegion r { s.region r with state := .triggered, trigger := some ⟨(s.region r).committed, .host⟩ })) :=
  if_pos h

theorem triggerRegion_triggered {t : Trigger} (h : (s.region r).state = .triggered)
    (ht : (s.region r).trigger = some t) : triggerRegion tag r s =
      makeReply tag false .ok ([numberByte r.val, 3] ++ beBytes 6 t.seq ++ [t.source.code]) s := by
  simp only [triggerRegion, h, ht]
  rfl

theorem triggerRegion_badState (h : (s.region r).capturing = false) :
    triggerRegion tag r s = refuse tag .badState 9 (numberByte r.val) s := by
  obtain ⟨harmed, htriggered⟩ : (s.region r).state ≠ .armed ∧ (s.region r).state ≠ .triggered := by
    simpa [Region.capturing] using h
  simp [triggerRegion, harmed, htriggered]

end

/-! ### STOP (R52, R53) -/

section
variable {r : RegionId} (tag : Byte) (s : State)

/-- A STOP answers the record that the stop leaves. -/
theorem stopRequest_capturing (h : (s.region r).capturing = true) : stopRequest tag r s =
    makeReply tag false .ok (stopBody r { s.region r with state := .stopped, stopCause := some .host })
      (stopRegion r .host s) := by
  simp [stopRequest, h, stopRegion_region, answer]

theorem stopRequest_stopped (h : (s.region r).state = .stopped) :
    stopRequest tag r s = makeReply tag false .ok (stopBody r (s.region r)) s := by
  simp [stopRequest, Region.capturing, h, answer]

theorem stopRequest_badState (hc : (s.region r).capturing = false) (hs : (s.region r).state ≠ .stopped) :
    stopRequest tag r s = refuse tag .badState 15 (numberByte r.val) s := by
  simp [stopRequest, hc, hs]

theorem stopBody_eq {b : Byte} (hb : b.toNat = r.val) (g : Region) : stopBody r g =
    [b, if g.trigger.isSome then 2 else 0, stopCauseCode g.stopCause] ++ beBytes 6 g.committed
      ++ beBytes 6 (match g.trigger with | some t => t.seq | none => 0) := by
  rw [stopBody, numberByte_of_toNat hb]
  cases ht : g.trigger <;> simp [Region.triggerSeq, ht, flagBits]

end

/-! ### RELEASE (R59, R60) -/

section
variable {s : State} {r : RegionId}

theorem windowOpenOn_iff :
    windowOpenOn r s = true ↔ ∃ w, (s.window w).state ≠ .closed ∧ (s.window w).region = r := by
  simp [windowOpenOn]

theorem Port.working_iff (q : Port) :
    q.working = true ↔ q.inFlight.isSome = true ∨ ∃ c, q.claim = some c ∧ c.stage ≠ .pinHold := by
  cases hc : q.claim <;> simp [Port.working, hc]

theorem writerWorking_iff : writerWorking r s = true ↔ ∃ p, (s.region r).boundPort = some p ∧
    ((s.port p).inFlight.isSome = true ∨ ∃ c, (s.port p).claim = some c ∧ c.stage ≠ .pinHold) := by
  cases hp : (s.region r).boundPort <;> simp [writerWorking, hp, Port.working_iff]

theorem Scanner.walking_iff (x : Scanner) :
    x.walking = true ↔ ∃ q page n m tag stale, x = .releaseWalk q page n m tag stale := by
  cases x <;> simp [Scanner.walking]

/-- What keeps an ended region from being released (R59). -/
def releaseBusy (r : RegionId) (s : State) : Bool :=
  windowOpenOn r s || writerWorking r s || s.alloc.scanner.walking

end

section
variable {r : RegionId} (tag : Byte) (s : State)

theorem releaseRegion_idle (h : (s.region r).state = .idle) :
    releaseRegion tag r s = makeReply tag false .ok [numberByte r.val, 0, 0, 0, 0] s := if_pos h

theorem releaseRegion_releasing (h : (s.region r).state = .releasing) :
    releaseRegion tag r s = refuse tag .busy 5 (numberByte r.val) s := by
  simp [releaseRegion, h]

theorem releaseRegion_ended (h : (s.region r).state = .stopped ∨ (s.region r).state = .faulted) :
    releaseRegion tag r s =
      if releaseBusy r s then refuse tag .busy 5 (numberByte r.val) s else beginRelease tag r s := by
  rcases h with h | h <;> simp only [releaseRegion, h] <;> rfl

theorem releaseRegion_badState (h : (s.region r).state = .unused ∨ (s.region r).capturing = true) :
    releaseRegion tag r s = refuse tag .badState 5 (numberByte r.val) s := by
  have hstate : (s.region r).state = .unused ∨ (s.region r).state = .armed ∨ (s.region r).state = .triggered := by
    simpa [Region.capturing] using h
  rcases hstate with h | h | h <;> simp [releaseRegion, h]

end

end Sys2Proof.Machine

open Sys2Proof Sys2Proof.Machine

/-- Settles O44: the state of the region decides first, then the ranges of the fields that the body reads as. -/
theorem defineSetsTheParameters : Obligations.DefineSetsTheParameters := by
  intro s tag rest r b c policy quota anchor post mark hb hquota hanchor hpost hmark body h g ready inRange
  have hbody : body = defineRequest b c policy quota anchor post mark := rfl
  have hexec : exec (.define tag body) s = .next (defineRegion tag body r (s.taken rest)) :=
    exec_define_requested hb (by simp) h
  rw [hexec]
  refine ⟨fun hready hrange => ?_, fun hready hrange => ?_, fun hready => ?_⟩
  · have ⟨_, _, _, _, _, _, hvalid⟩ := hrange
    rw [hbody, defineRegion_accepts tag (s.taken rest) hready (paramsArg_inRange hquota hanchor hpost hmark hrange),
      defineBody_eq hb hvalid _ rfl]
    rfl
  · rw [hbody, defineRegion_badArg tag (s.taken rest) hready (paramsArg_outOfRange hquota hanchor hpost hmark hrange)]
    rfl
  · rw [defineRegion_badState tag (s.taken rest) hready]
    rfl

/-- Settles O45: the tests in their order, and the capturing notice by whether a port is bound. -/
theorem armStartsTheCapture : Obligations.ArmStartsTheCapture := by
  intro s tag b rest r hb h g n t u body passes
  have harm (m available : Nat) : armBody r m available = [b] ++ beBytes 2 m ++ beBytes 2 available := by
    rw [armBody, numberByte_of_toNat hb]
  have hrefuse (status : Status) : refuse tag status 5 (numberByte r.val) (s.taken rest) =
      makeReply tag false status [b, 0, 0, 0, 0] (s.taken rest) := by
    rw [numberByte_of_toNat hb]; rfl
  rw [exec_arm_requested hb h]
  refine ⟨fun ⟨hstate, hsuspect, hpages⟩ hport => congrArg _ ?_, fun ⟨hstate, hsuspect, hpages⟩ p hport => congrArg _ ?_,
    fun hstate => congrArg _ ?_, fun hstate hsuspect => congrArg _ ?_, fun hstate hsuspect hpages => congrArg _ ?_⟩
  · rw [armRegion_passes tag (s.taken rest) hstate hsuspect hpages, harm, notifyCapturing_unbound (s.taken rest) hport]
    rfl
  · rw [armRegion_passes tag (s.taken rest) hstate hsuspect hpages, harm, notifyCapturing_bound (s.taken rest) hport]
    rfl
  · rw [armRegion_badState tag (s.taken rest) hstate, hrefuse]
  · rw [armRegion_suspect tag (s.taken rest) hstate hsuspect, hrefuse]
  · rw [armRegion_noPages tag (s.taken rest) hstate hsuspect hpages, harm]
    rfl

/-- Settles O46: TRIGGER by the state of the region. -/
theorem triggerNamesTheRecord : Obligations.TriggerNamesTheRecord := by
  intro s tag b rest r hb h g
  rw [exec_trigger_requested hb h, ← numberByte_of_toNat hb]
  exact ⟨fun hstate => congrArg _ (triggerRegion_armed tag (s.taken rest) hstate),
    fun hstate k source ht => congrArg _ (triggerRegion_triggered tag (s.taken rest) hstate ht),
    fun hstate => congrArg _ (triggerRegion_badState tag (s.taken rest) hstate)⟩

/-- Settles O47: STOP by the state of the region, with the body of the record that it leaves. -/
theorem stopEndsTheCapture : Obligations.StopEndsTheCapture := by
  intro s tag b rest r hb h g body
  rw [exec_stop_requested hb h]
  refine ⟨fun hc => congrArg _ ?_, fun hs => congrArg _ ?_, fun hc hs => congrArg _ ?_⟩
  · rw [stopRequest_capturing tag (s.taken rest) hc, stopBody_eq hb]
    rfl
  · rw [stopRequest_stopped tag (s.taken rest) hs, stopBody_eq hb]
    rfl
  · rw [stopRequest_badState tag (s.taken rest) hc hs, numberByte_of_toNat hb]
    rfl

/-- Settles O48: RELEASE by the state of the region, and of an ended one by the three tests of R59. -/
theorem releaseStartsTheWalk : Obligations.ReleaseStartsTheWalk := by
  intro s tag b rest r hb h g ended busy answered
  have hbusy : releaseBusy r (s.taken rest) = true ↔ busy := by
    simp only [releaseBusy, Bool.or_eq_true, windowOpenOn_iff, writerWorking_iff, Scanner.walking_iff, or_assoc]
    rfl
  rw [exec_release_requested hb h]
  simp only [answered, ← numberByte_of_toNat hb]
  refine ⟨fun hs => congrArg _ (releaseRegion_idle tag (s.taken rest) hs),
    fun hs => congrArg _ (releaseRegion_releasing tag (s.taken rest) hs),
    fun he hy => congrArg _ ((releaseRegion_ended tag (s.taken rest) he).trans (if_pos (hbusy.2 hy))),
    fun hs => congrArg _ (releaseRegion_badState tag (s.taken rest) hs), fun he hn => ?_⟩
  exact ⟨s.cache.purgeRegion r, Cache.purgeRegion_get s.cache r, rfl, rfl, rfl,
    congrArg _ ((releaseRegion_ended tag (s.taken rest) he).trans (if_neg (mt hbusy.1 hn)))⟩
end

section
/-! SUPPORT. The queries (R65, R108, R136): the bits of their flags bytes and the fields that are absent. -/

namespace Sys2Proof.Machine

/-! ### Flags and counts (11.5) -/

/-- A flags byte as the sum of its bits, for the numbers of bits that the queries send. -/
theorem flagBits_two : ∀ b0 b1 : Bool, flagBits [b0, b1] = (if b0 then 1 else 0) + (if b1 then 2 else 0) := by decide

theorem flagBits_five : ∀ b0 b1 b2 b3 b4 : Bool, flagBits [b0, b1, b2, b3, b4] =
    (if b0 then 1 else 0) + (if b1 then 2 else 0) + (if b2 then 4 else 0) + (if b3 then 8 else 0) + (if b4 then 16 else 0) := by
  decide

theorem flagBits_six : ∀ b0 b1 b2 b3 b4 b5 : Bool, flagBits [b0, b1, b2, b3, b4, b5] =
    (if b0 then 1 else 0) + (if b1 then 2 else 0) + (if b2 then 4 else 0) + (if b3 then 8 else 0) + (if b4 then 16 else 0)
      + (if b5 then 32 else 0) := by
  decide

/-- The entries of a region, counted by their places in the cache (R85). -/
theorem Cache.countRegion_eq (c : Cache) (r : RegionId) : c.countRegion r =
    (List.finRange 24).countP (fun i => decide ((c.entries.get i).map (·.region) = some r)) := by
  have hlist : c.entries.toList = (List.finRange 24).map c.entries.get := by
    refine List.ext_getElem (by simp) fun i _ _ => ?_
    simp only [Vector.getElem_toList, List.getElem_map, List.getElem_finRange]
    rfl
  rw [Cache.countRegion, hlist, List.countP_map]
  rfl

/-! ### A query reaches its owner -/

section
variable {s : State} {tag b : Byte} {rest : List Request}

theorem exec_query_requested {r : RegionId} (hb : b.toNat = r.val) (h : Requested s 0x15 tag [b] rest) :
    exec (.query tag [b]) s = .next (makeReply tag false .ok (queryBody r (s.taken rest)) (s.taken rest)) := by
  simp only [exec, execQuery, serve_requested h rfl, withRegion_inRange hb]
  rfl

theorem exec_portQuery_requested {p : PortId} (hb : b.toNat = p.val) (h : Requested s 0x21 tag [b] rest) :
    exec (.portQuery tag [b]) s = .next (makeReply tag false .ok (portQueryBody p (s.port p)) (s.taken rest)) := by
  simp only [exec, execPortQuery, serve_requested h rfl, queryPort, field_head, hb, portArg_val]
  rfl

theorem exec_windowQuery_requested {w : WindowId} (hb : b.toNat = w.val) (h : Requested s 0x33 tag [b] rest) :
    exec (.windowQuery tag [b]) s = .next (makeReply tag false .ok (windowQueryBody w (s.window w)) (s.taken rest)) := by
  simp only [exec, execWindowQuery, serve_requested h rfl, queryWindow, field_head, hb, windowArg_val]
  rfl

end

end Sys2Proof.Machine

open Sys2Proof Sys2Proof.Machine

/-- Settles O49: each query answers the fields of the record it reads, those that may be absent by whether they are. -/
theorem queriesAnswer : Obligations.QueriesAnswer := by
  refine ⟨fun g p hp => ?_, fun s tag b rest => ⟨fun r hb h => ?_, fun p hb h => ?_, fun w hb h => ?_⟩⟩
  · simp [Region.sizeCode, Region.quota, Region.anchor, Region.postCount, Region.pinPolicy, Region.markInterval,
      Region.recSize, Region.rpp, Config.pageBytes, hp]
  · rw [exec_query_requested hb h, queryBody, numberByte_of_toNat hb]
    refine congrArg (fun body => Host.Outcome.next (makeReply tag false .ok body (s.taken rest))) ?_
    simp only [flagBits_five, Cache.countRegion_eq, State.taken_region, State.taken_cache, State.taken_owned,
      State.taken_reservation, Region.sizeCode, Region.quota, Region.anchor, Region.postCount, Region.pinPolicy,
      Region.markInterval, Region.rpp, Region.recSize, Region.triggerSeq, Config.pageBytes, optionalNumber,
      numberByte]
    generalize s.region r = g
    cases g.params <;> cases g.trigger <;> cases g.boundPort <;>
      simp only [Option.map_none, Option.map_some, Option.getD_none, Option.getD_some, Nat.div_zero, PinPolicy.code]
  · rw [exec_portQuery_requested hb h, portQueryBody, numberByte_of_toNat hb]
    refine congrArg (fun body => Host.Outcome.next (makeReply tag false .ok body (s.taken rest))) ?_
    simp only [flagBits_six, optionalNumber, numberByte, reported, Config.count32Max]
    generalize s.port p = q
    cases q.binding <;> cases q.assembly <;> cases q.claim <;> rfl
  · rw [exec_windowQuery_requested hb h, windowQueryBody, numberByte_of_toNat hb]
    refine congrArg (fun body => Host.Outcome.next (makeReply tag false .ok body (s.taken rest))) ?_
    simp only [flagBits_two]
    generalize s.window w = x
    cases x.fetch <;> cases x.closeTag <;> rfl
end

section
/-! SUPPORT. The fetch's next record (R69, R72, R82, R128): its slot and offset by the region's parameters, and the two answers
of the slot cache. -/

namespace Sys2Proof.Machine

/-! ### Record sizes and slots (R69, R72) -/

section
variable {g : Region} {ps : Params}

theorem Region.anchor_of_params (hp : g.params = some ps) : g.anchor = ps.anchor := by
  rw [Region.anchor, hp]

theorem Region.recSize_of_params (hp : g.params = some ps) : g.recSize = 2 ^ ps.sizeCode := by
  rw [Region.recSize, hp]

theorem Region.rpp_of_params (hp : g.params = some ps) : g.rpp = 4096 / 2 ^ ps.sizeCode := by
  rw [Region.rpp, Region.recSize_of_params hp, Config.pageBytes]

theorem Region.offsetOf_of_params (hp : g.params = some ps) (k : Nat) :
    g.offsetOf k = k % (4096 / 2 ^ ps.sizeCode) * 2 ^ ps.sizeCode := by
  rw [Region.offsetOf, Region.rpp_of_params hp, Region.recSize_of_params hp]

/-- The rules of R72 leave one slot to a logical page: its own number before the first wrap and in the anchor area, and its
place in the rolling area otherwise. -/
theorem Region.slotOf_eq {l slot : Nat} (hp : g.params = some ps) (hunwrapped : g.wrapLength = none → slot = l)
    (hanchor : l < ps.anchor → slot = l)
    (hrolling : ∀ n, g.wrapLength = some n → ps.anchor ≤ l → slot = ps.anchor + (l - ps.anchor) % n) :
    g.slotOf l = slot := by
  rw [Region.slotOf, Region.anchor_of_params hp]
  cases hw : g.wrapLength with
  | none => exact (hunwrapped hw).symm
  | some n =>
    by_cases hl : l < ps.anchor
    · exact (if_pos hl).trans (hanchor hl).symm
    · exact (if_neg hl).trans (hrolling n hw (Nat.not_lt.1 hl)).symm

end

/-! ### The answers of the slot cache (R128) -/

section
variable {s t : State} {w : WindowId} {r : RegionId} {slot : Nat} {who : Requester} {answer : Option Nat}

theorem lookupSlot_window (h : lookupSlot r slot who s = (answer, t)) (i : WindowId) : t.window i = s.window i := by
  obtain rfl : (lookupSlot r slot who s).2 = t := congrArg Prod.snd h
  simp only [lookupSlot_frame]

theorem lookupSlot_region (h : lookupSlot r slot who s = (answer, t)) (i : RegionId) : t.region i = s.region i := by
  obtain rfl : (lookupSlot r slot who s).2 = t := congrArg Prod.snd h
  simp only [lookupSlot_frame]

/-- The record read that a fetch issues is of one record, at its offset (R69, R128). -/
theorem fetchRead_of_params {ps : Params} (hp : (s.region (s.window w).region).params = some ps) (f : Fetch) (page : Nat) :
    fetchRead w f page s =
      issueRead w ⟨page, f.current % (4096 / 2 ^ ps.sizeCode) * 2 ^ ps.sizeCode, 2 ^ ps.sizeCode⟩
        (s.setWindow w { s.window w with fetch := some { f with stage := .read } }) := by
  simp only [fetchRead, Region.offsetOf_of_params hp, Region.recSize_of_params hp]

/-- A hit: the record is read at once. -/
theorem fetchNext_hit {f : Fetch} {page : Nat}
    (h : lookupSlot (s.window w).region ((s.region (s.window w).region).slotOf
      (f.current / (s.region (s.window w).region).rpp)) (.window w) s = (some page, t)) :
    fetchNext w f s = fetchRead w f page t := by
  simp only [fetchNext, h]

/-- A miss: the fetch waits for the directory read. -/
theorem fetchNext_miss {f : Fetch}
    (h : lookupSlot (s.window w).region ((s.region (s.window w).region).slotOf
      (f.current / (s.region (s.window w).region).rpp)) (.window w) s = (none, t)) :
    fetchNext w f s = t.setWindow w { s.window w with fetch := some { f with stage := .lookup } } := by
  simp only [fetchNext, h, lookupSlot_window h]

end

end Sys2Proof.Machine

open Sys2Proof Sys2Proof.Machine

/-- Settles O29: the slot is the one that `slotOf` computes, and the lookup leaves the fetch's window and region as they were. -/
theorem fetchLooksUpTheNextRecord : Obligations.FetchLooksUpTheNextRecord := by
  intro s w f ps hp x g size l slot hunwrapped hanchor hrolling
  have hslot : g.slotOf (f.current / g.rpp) = slot := by
    rw [Region.rpp_of_params hp]
    exact Region.slotOf_eq hp hunwrapped hanchor hrolling
  refine ⟨fun page t h => ?hit, fun t h => ?miss⟩
  case hit =>
    have hp' : (t.region (t.window w).region).params = some ps := by
      rw [lookupSlot_window h, lookupSlot_region h, hp]
    rw [← hslot] at h
    rw [fetchNext_hit h, fetchRead_of_params hp', lookupSlot_window h]
    rfl
  case miss =>
    rw [← hslot] at h
    exact fetchNext_miss h
end

section
/-! SUPPORT. The slot cache (chapter 5): a lookup, an install and a write-update, each by what the cache's search finds. -/

namespace Sys2Proof.Machine

/-! ### The search and the installs (R86, R87, R90) -/

section
variable {c : Cache} {r : RegionId} {slot : Nat} {i : Fin 24} {e : CacheEntry}

theorem Cache.find_pair (hd : c.distinct) (he : c.entries.get i = some e) (hr : e.region = r) (hs : e.slot = slot) :
    c.find r slot = some i := by
  subst hr hs
  exact Cache.find_of_distinct hd he

theorem Cache.firstInvalid_full (h : ∀ i, c.entries.get i ≠ none) : c.firstInvalid = none := by
  refine List.find?_eq_none.2 fun i _ => ?_
  simpa only [Option.isNone_iff_eq_none] using h i

/-- The lowest-numbered invalid entry takes the install, and the victim pointer stays. -/
theorem Cache.install_invalid (e : CacheEntry) (h : c.entries.get i = none) (hfirst : ∀ j, j < i → c.entries.get j ≠ none) :
    c.install e = { c with entries := c.entries.set i.val (some e) i.isLt } := by
  simp only [Cache.install, Cache.firstInvalid_eq h hfirst]

/-- With every entry valid the victim gives way, and the pointer steps. -/
theorem Cache.install_full (e : CacheEntry) (h : ∀ i, c.entries.get i ≠ none) :
    c.install e =
      { c with entries := c.entries.set c.victim.val (some e) c.victim.isLt, victim := stepVictim c.victim } := by
  simp only [Cache.install, Cache.firstInvalid_full h]

end

/-! ### Lookups and write-updates (R87, R88, R92) -/

section
variable {s : State} {r : RegionId} {slot : Nat} {i : Fin 24} {e : CacheEntry}

theorem lookupSlot_hit (who : Requester) (hf : s.cache.find r slot = some i) (he : s.cache.entries.get i = some e) :
    lookupSlot r slot who s = (some e.page, s.setCache (s.cache.hit i)) := by
  simp only [lookupSlot, hf, he, Option.map_some]

theorem lookupSlot_miss (who : Requester) (hf : s.cache.find r slot = none) :
    lookupSlot r slot who s = (none, (s.setCache s.cache.miss).setStore
      { s.store with directoryOps := s.store.directoryOps ++ [.read r slot who] }) := by
  simp only [lookupSlot, hf]

theorem writeUpdate_faulted (page : Nat) (h : (s.region r).state = .faulted) : writeUpdate r slot page s = s := if_pos h

/-- The valid entry of the pair takes the fresh page in its place. -/
theorem writeUpdate_replaces (page : Nat) (h : (s.region r).state ≠ .faulted) (hf : s.cache.find r slot = some i) :
    writeUpdate r slot page s =
      s.setCache { s.cache with entries := s.cache.entries.set i.val (some ⟨r, slot, page⟩) i.isLt } := by
  simp only [writeUpdate, if_neg h, hf]

theorem writeUpdate_installs (page : Nat) (h : (s.region r).state ≠ .faulted) (hf : s.cache.find r slot = none) :
    writeUpdate r slot page s = s.setCache (s.cache.install ⟨r, slot, page⟩) := by
  simp only [writeUpdate, if_neg h, hf]

end

end Sys2Proof.Machine

open Sys2Proof Sys2Proof.Machine

/-- Settles O13: the pairs being distinct, the search finds the one entry that holds the pair; the lookup and the write-update
go by what it finds, the install by whether an entry is invalid. -/
theorem cacheLookupAndInstall : Obligations.CacheLookupAndInstall := by
  intro s r slot who hd
  refine ⟨fun i e he hr hs => ?hit, fun hn => ?miss, fun e i h hfirst => ?invalid, fun e h => ?full,
    fun page h => ?faulted, fun page i e h he hr hs => ?replaces, fun page h hn => ?installs⟩
  case hit => exact lookupSlot_hit who (Cache.find_pair hd he hr hs) he
  case miss => exact lookupSlot_miss who (Cache.find_none hn)
  case invalid => exact Cache.install_invalid e h hfirst
  case full => exact Cache.install_full e h
  case faulted => exact writeUpdate_faulted page h
  case replaces => exact writeUpdate_replaces page h (Cache.find_pair hd he hr hs)
  case installs => exact writeUpdate_installs page h (Cache.find_none hn)
end

section
/-! SUPPORT. The accounts of the capture ports (R40, R104, R112, R118, R119): what `State.portAccounts` says, port by port, and
the operations of the store controller, the writers and the fetch engine, which keep it. -/

namespace Sys2Proof.Machine

/-! ### The accounts, port by port -/

/-- The equation of R104 stays where both its sides change by the same. -/
theorem Port.balanced.update {q q' : Port} (k : q.balanced) (hf : q'.inFlight = q.inFlight)
    (he : q'.counts.arrived + (q.counts.stored + q.counts.dropIdle + q.counts.dropFull + q.counts.dropShort
        + q.counts.dropFlush + q.staging.length) =
      q.counts.arrived + (q'.counts.stored + q'.counts.dropIdle + q'.counts.dropFull + q'.counts.dropShort
        + q'.counts.dropFlush + q'.staging.length)) : q'.balanced := by
  unfold Port.balanced at k ⊢
  rw [hf]
  omega

/-- A record write of the port is issued: it waits at the arbiter, or it holds the store port (R111). -/
def Store.issued (st : Store) (p : PortId) : Prop :=
  (st.writes.get p).isSome = true ∨ ∃ w, st.port = some (.recordWrite p w)

/-- What `State.portAccounts` asks of the record `q` of port `p`; `State.portAccounts_iff` ties the two. -/
structure PortKept (s : State) (p : PortId) (q : Port) : Prop where
  balanced : q.balanced
  staged : q.staging ≠ [] → q.halted = false ∧ ∃ r, q.binding = some r ∧ (s.region r).capturing = true
  issued : q.inFlight.isSome = true ↔ s.store.issued p
  once : ∀ w, s.store.port = some (.recordWrite p w) → s.store.writes.get p = none
  claimed : q.claim ≠ none → q.inFlight = none
  restarting : s.device = .restarting → q.halted = true
  walking : ∀ page, s.alloc.scanner = .restartWalk page → q.halted = true ∧ q.inFlight = none

theorem State.portAccounts_iff (s : State) :
    s.portAccounts ↔ s.bindingsMirror ∧ s.walkReleasing ∧ ∀ p, PortKept s p (s.port p) := by
  constructor
  · rintro ⟨hmirror, hwalk, hbalanced, hstaged, hissued, honce, hclaimed, hrestarting, hwalking⟩
    exact ⟨hmirror, hwalk, fun p => ⟨hbalanced p, hstaged p, hissued p, honce p, hclaimed p, (hrestarting · p),
      (hwalking · · p)⟩⟩
  · rintro ⟨hmirror, hwalk, k⟩
    exact ⟨hmirror, hwalk, fun p => (k p).balanced, fun p => (k p).staged, fun p => (k p).issued, fun p => (k p).once,
      fun p => (k p).claimed, fun hd p => (k p).restarting hd, fun page hs p => (k p).walking page hs⟩

variable {s t : State} {p : PortId} {q : Port}

theorem State.portAccounts.kept (h : s.portAccounts) (p : PortId) : PortKept s p (s.port p) :=
  ((State.portAccounts_iff s).1 h).2.2 p

/-- A halted port has nothing staged. -/
theorem PortKept.staging_of_halted (k : PortKept s p q) (hh : q.halted = true) : q.staging = [] := by
  by_contra hne
  rw [(k.staged hne).1] at hh
  cases hh

/-- A port with no write in flight has none issued. -/
theorem PortKept.not_issued (k : PortKept s p q) (hi : q.inFlight = none) : ¬s.store.issued p := by
  rw [← k.issued, hi]
  exact nofun

/-- The device and the scanner of `t` ask no more of a port than those of `s`. -/
structure Follows (s t : State) : Prop where
  restarting : t.device = .restarting → s.device = .restarting
  walking : ∀ page, t.alloc.scanner = .restartWalk page → ∃ page, s.alloc.scanner = .restartWalk page

theorem Follows.of_eq (hd : t.device = s.device) (hn : t.alloc.scanner = s.alloc.scanner) : Follows s t :=
  ⟨fun k => hd ▸ k, fun page k => ⟨page, hn ▸ k⟩⟩

theorem PortKept.follow (k : PortKept s p q) (c : Follows s t)
    (hc : q.staging ≠ [] → ∀ r, q.binding = some r → (s.region r).capturing = true → (t.region r).capturing = true)
    (hi : t.store.issued p ↔ s.store.issued p)
    (ho : ∀ w, t.store.port = some (.recordWrite p w) → t.store.writes.get p = none) : PortKept t p q where
  balanced := k.balanced
  staged hne := by
    obtain ⟨hh, r, hb, hr⟩ := k.staged hne
    exact ⟨hh, r, hb, hc hne r hb hr⟩
  issued := k.issued.trans hi.symm
  once := ho
  claimed := k.claimed
  restarting hd := k.restarting (c.restarting hd)
  walking page hs := by
    obtain ⟨page', hs'⟩ := c.walking page hs
    exact k.walking page' hs'

/-- The store issues the same writes at the same places. -/
theorem PortKept.follow_store (k : PortKept s p q) (c : Follows s t)
    (hc : q.staging ≠ [] → ∀ r, q.binding = some r → (s.region r).capturing = true → (t.region r).capturing = true)
    (hs : t.store.writes = s.store.writes)
    (ho : ∀ w, t.store.port = some (.recordWrite p w) ↔ s.store.port = some (.recordWrite p w)) : PortKept t p q := by
  refine k.follow c hc ?_ fun w => ?_
  · simp only [Store.issued, hs, ho]
  · rw [ho, hs]
    exact k.once w

theorem State.bindingsMirror.of_eq (h : s.bindingsMirror) (hp : ∀ p, (t.port p).binding = (s.port p).binding)
    (hr : ∀ r, (t.region r).boundPort = (s.region r).boundPort) : t.bindingsMirror :=
  fun p r => by rw [hp, hr, h]

/-- An operation that leaves the ports and the writes issued for them. -/
theorem State.portAccounts.follow (h : s.portAccounts) (c : Follows s t) (hw : t.walkReleasing)
    (hc : ∀ r, (s.region r).capturing = true → (t.region r).capturing = true)
    (hb : ∀ r, (t.region r).boundPort = (s.region r).boundPort) (hp : ∀ p, t.port p = s.port p)
    (hs : t.store.writes = s.store.writes)
    (ho : ∀ p w, t.store.port = some (.recordWrite p w) ↔ s.store.port = some (.recordWrite p w)) : t.portAccounts := by
  obtain ⟨hmirror, -, k⟩ := (State.portAccounts_iff s).1 h
  refine (State.portAccounts_iff t).2 ⟨hmirror.of_eq (fun p => by rw [hp]) hb, hw, fun p => ?_⟩
  rw [hp]
  exact (k p).follow_store c (fun _ r _ => hc r) hs (ho p)

theorem State.portAccounts.walks (h : s.portAccounts) : s.walkReleasing := ((State.portAccounts_iff s).1 h).2.1

/-- An operation that leaves the device, the scanner, the regions and the ports, and of the store the writes and the port. -/
theorem State.portAccounts.frame (h : s.portAccounts) (e : t.device = s.device ∧ t.alloc.scanner = s.alloc.scanner ∧
    t.store.writes = s.store.writes ∧ t.store.port = s.store.port ∧ (∀ r, t.region r = s.region r) ∧
    ∀ p, t.port p = s.port p) : t.portAccounts := by
  obtain ⟨hd, hn, hs, ho, hr, hp⟩ := e
  exact h.follow (.of_eq hd hn) (h.walks.mono hn fun r k => hr r ▸ k) (fun r k => hr r ▸ k) (fun r => by rw [hr]) hp hs
    fun p w => by rw [ho]

/-- An operation that leaves the pages, the bindings and the ports, and of the store the writes and the port. -/
theorem State.portAccounts.same (h : s.portAccounts) (k : SamePages s t)
    (e : (∀ r, (t.region r).boundPort = (s.region r).boundPort) ∧ (∀ p, t.port p = s.port p) ∧
      t.store.writes = s.store.writes ∧ t.store.port = s.store.port) : t.portAccounts := by
  obtain ⟨hb, hp, hs, ho⟩ := e
  obtain ⟨-, -, -, hn⟩ := Allocator.ledger_eq k.ledger
  exact h.follow (.of_eq k.device hn) (h.walks.mono hn k.releasing) k.capturing hb hp hs fun p w => by rw [ho]

/-! ### Operations on one port -/

/-- An update of one port that keeps its binding, with the store changed for that port alone. -/
theorem setStorePort_accounts {st : Store} (h : s.portAccounts) (hb : q.binding = (s.port p).binding)
    (ho : ∀ i, i ≠ p → (st.issued i ↔ s.store.issued i) ∧
      ∀ w, st.port = some (.recordWrite i w) → st.writes.get i = none)
    (k : PortKept (s.setStore st) p q) : ((s.setStore st).setPort p q).portAccounts := by
  obtain ⟨hmirror, hwalk, kept⟩ := (State.portAccounts_iff s).1 h
  refine (State.portAccounts_iff _).2 ⟨hmirror.of_eq (fun i => ?_) fun _ => rfl, hwalk, fun i => ?_⟩
  · rw [State.setPort_port]
    split
    · next hi => rw [hi, hb]
    · rfl
  · have ki : PortKept (s.setStore st) i (((s.setStore st).setPort p q).port i) := by
      rw [State.setPort_port]
      split
      · next hi => exact hi ▸ k
      · next hi => exact (kept i).follow (.of_eq rfl rfl) (fun _ _ _ => id) (ho i hi).1 (ho i hi).2
    exact ki.follow (.of_eq rfl rfl) (fun _ _ _ => id) Iff.rfl ki.once

theorem setPort_accounts (h : s.portAccounts) (hb : q.binding = (s.port p).binding) (k : PortKept s p q) :
    (s.setPort p q).portAccounts :=
  setStorePort_accounts (st := s.store) h hb (fun i _ => ⟨Iff.rfl, (h.kept i).once⟩) k

/-- The writer's condition, fill page and claim change; a claim is held only with no write in flight (R118). -/
theorem setWriter_accounts (h : s.portAccounts) (writer : WriterCondition) (fillPage : Option FillPage) {claim : Option Claim}
    (hc : claim ≠ none → (s.port p).inFlight = none) :
    (s.setPort p { s.port p with writer := writer, fillPage := fillPage, claim := claim }).portAccounts :=
  setPort_accounts h rfl { h.kept p with claimed := hc }

theorem endClaim_accounts (h : s.portAccounts) : (s.setPort p { s.port p with claim := none }).portAccounts :=
  setWriter_accounts h _ _ nofun

/-! ### Operations on one region -/

/-- A region that keeps its bound port, and captures and is RELEASING still where it did and was. -/
theorem setRegion_accounts {r : RegionId} {x : Region} (h : s.portAccounts) (hb : x.boundPort = (s.region r).boundPort)
    (hc : (s.region r).capturing = true → x.capturing = true)
    (hr : (s.region r).state = .releasing → x.state = .releasing) : (s.setRegion r x).portAccounts := by
  refine h.same ((SamePages.refl s).region hc hr) ⟨fun i => ?_, fun _ => rfl, rfl, rfl⟩
  rw [State.setRegion_region]
  split
  · next e => rw [hb, e]
  · rfl

theorem regionState_accounts {r : RegionId} {x : Region} (h : s.portAccounts)
    (hb : x.boundPort = (s.region r).boundPort) (hx : x.state = (s.region r).state) : (s.setRegion r x).portAccounts :=
  setRegion_accounts h hb (fun k => by simpa only [Region.capturing, hx] using k) fun k => hx.trans k

/-! ### Events, replies, windows and the store controller -/

theorem raiseEvent_accounts {key : EventKey} {payload : Payload} (h : s.portAccounts) :
    (raiseEvent key payload s).portAccounts := h.frame (by simp)

theorem makeReply_accounts {tag : Byte} {stale : Bool} {status : Status} {body : List Byte} (h : s.portAccounts) :
    (makeReply tag stale status body s).portAccounts := h.frame (by simp)

theorem evaluateNotice_accounts (h : s.portAccounts) : (evaluateNotice s).portAccounts := h.frame (by simp)

theorem setWindow_accounts {w : WindowId} {x : Window} (h : s.portAccounts) : (s.setWindow w x).portAccounts :=
  h.frame (by simp)

/-- The record writes issued in `st'` are those of `st`, each at one place: waiting, or on the port. -/
structure Store.SameWrites (st st' : Store) : Prop where
  issued : ∀ p, st'.issued p ↔ st.issued p
  once : ∀ p w, st'.port = some (.recordWrite p w) → st'.writes.get p = none

/-- A free port that is given no record write. -/
theorem Store.SameWrites.of_other {st st' : Store} (hp : st.port = none) (hw : st'.writes = st.writes)
    (ho : ∀ p w, st'.port ≠ some (.recordWrite p w)) : st.SameWrites st' where
  issued p := by simp [Store.issued, hp, hw, ho]
  once p w h := absurd h (ho p w)

theorem Store.grantRead_sameWrites {st : Store} (hp : st.port = none) : st.SameWrites st.grantRead := by
  unfold Store.grantRead
  split
  · exact .of_other hp rfl (by simp [hp])
  · split
    · exact .of_other hp rfl (by simp [hp])
    · exact .of_other hp rfl nofun

/-- A write granted goes from its place at the arbiter to the port. -/
theorem Store.grantWrite_sameWrites {st : Store} (hp : st.port = none) : st.SameWrites st.grantWrite := by
  unfold Store.grantWrite
  split
  · exact .of_other hp rfl (by simp [hp])
  · next p _ =>
    split
    · exact .of_other hp rfl (by simp [hp])
    · next w hw =>
      refine ⟨fun i => ?_, fun i x hx => ?_⟩
      · by_cases hi : i = p
        · simp [Store.issued, hi, hw]
        · simp [Store.issued, hp, vector_get_set, hi, Ne.symm hi]
      · simp only [Option.some.injEq, StoreOp.recordWrite.injEq] at hx
        simp [vector_get_set, hx.1]

theorem Store.grant_sameWrites {st : Store} (ho : ∀ p w, st.port = some (.recordWrite p w) → st.writes.get p = none) :
    st.SameWrites st.grant := by
  unfold Store.grant
  split
  · exact ⟨fun _ => Iff.rfl, ho⟩
  · next hfree =>
    have hp : st.port = none := by
      simp only [not_or, Option.not_isSome_iff_eq_none] at hfree
      exact hfree.1
    split
    · exact Store.grantRead_sameWrites hp
    · split
      · exact .of_other hp rfl nofun
      · split
        · exact Store.grantWrite_sameWrites hp
        · exact Store.grantRead_sameWrites hp

theorem storeGrant_accounts (h : s.portAccounts) : (storeGrant s).portAccounts := by
  obtain ⟨hmirror, hwalk, k⟩ := (State.portAccounts_iff s).1 h
  have hsame := Store.grant_sameWrites fun p => (k p).once
  exact (State.portAccounts_iff _).2 ⟨hmirror, hwalk, fun p =>
    (k p).follow (.of_eq rfl rfl) (fun _ _ _ => id) (hsame.issued p) (hsame.once p)⟩

/-- The port becomes free of an operation that is no record write. -/
theorem freePort_accounts (h : s.portAccounts) (hn : ∀ p w, s.store.port ≠ some (.recordWrite p w)) :
    (freePort s).portAccounts := by
  refine h.follow (.of_eq rfl rfl) h.walks (fun _ => id) (fun _ => rfl) (fun _ => rfl) rfl fun p w => ?_
  exact ⟨nofun, fun k => absurd k (hn p w)⟩

theorem readWords_accounts {first count : Nat} {cells : Nat → WordOutcome} (h : s.portAccounts) :
    (readWords first count cells s).portAccounts := h.frame ⟨rfl, rfl, rfl, rfl, fun _ => rfl, fun _ => rfl⟩

theorem leaveUnreadable_accounts {n : Nat} (h : s.portAccounts) : (leaveUnreadable n s).portAccounts :=
  h.frame ⟨rfl, rfl, rfl, rfl, fun _ => rfl, fun _ => rfl⟩

theorem storeBytes_accounts {a : Nat} {bytes : List Byte} (h : s.portAccounts) : (storeBytes a bytes s).portAccounts :=
  h.frame ⟨rfl, rfl, rfl, rfl, fun _ => rfl, fun _ => rfl⟩

theorem issueRead_accounts {w : WindowId} {op : RecordRead} (h : s.portAccounts) : (issueRead w op s).portAccounts :=
  h.frame ⟨rfl, rfl, rfl, rfl, fun _ => rfl, fun _ => rfl⟩

theorem issueDirectory_accounts {op : DirectoryOp} (h : s.portAccounts) : (issueDirectory op s).portAccounts :=
  h.frame ⟨rfl, rfl, rfl, rfl, fun _ => rfl, fun _ => rfl⟩

theorem lookupSlot_accounts {r : RegionId} {slot : Nat} {who : Requester} (h : s.portAccounts) :
    (lookupSlot r slot who s).2.portAccounts := by
  unfold lookupSlot
  split
  · exact h.frame (by simp)
  · exact issueDirectory_accounts (h.frame (t := s.setCache s.cache.miss) (by simp))

/-! ### The writers (R110 to R118) -/

/-- The head record goes from the staging queue into flight, and its write to the arbiter (R111). -/
theorem issueHead_accounts {record : StagedRecord} {rest : List StagedRecord} (h : s.portAccounts)
    (hs : (s.port p).staging = record :: rest) (hi : (s.port p).inFlight = none) (hc : (s.port p).claim = none)
    (k : Nat) (w : RecordWrite) :
    (issueWrite p w (s.setPort p { s.port p with staging := rest, inFlight := some k })).portAccounts := by
  have kp := h.kept p
  have hstaged : (s.port p).staging ≠ [] := by simp [hs]
  refine setStorePort_accounts (st := { s.store with writes := s.store.writes.set p.val (some w) p.isLt }) h rfl
    (fun i hne => ?_) ⟨?balanced, fun _ => kp.staged hstaged, ?issued, fun x hx => ?once, fun hn => absurd hc hn,
      kp.restarting, fun page hp => ?walking⟩
  · simpa only [Store.issued, vector_get_set, if_neg hne, true_and] using (h.kept i).once
  case balanced =>
    have := kp.balanced
    simp only [Port.balanced, hs, hi, List.length_cons, Option.isSome, Bool.false_eq_true, if_false, if_true] at this ⊢
    omega
  case issued => simp [Store.issued, vector_get_set]
  case once => exact absurd (.inr ⟨x, hx⟩) (kp.not_issued hi)
  case walking => exact absurd (kp.staging_of_halted (kp.walking page hp).1) hstaged

theorem markerReport_accounts {r : RegionId} {k : Nat} (h : s.portAccounts) : (markerReport r k s).portAccounts :=
  h.same (markerReport_same (.refl s)) (by simp)

/-- A record write is issued where none is in flight and no claim is in progress (R110, R113). -/
theorem issueRecordWrite_accounts {r : RegionId} {page : Nat} (h : s.portAccounts) (hi : (s.port p).inFlight = none)
    (hc : (s.port p).claim = none) : (issueRecordWrite p r page s).portAccounts := by
  unfold issueRecordWrite
  split
  · exact h
  · next record rest hs =>
    dsimp only
    split
    · exact markerReport_accounts (issueHead_accounts h hs hi hc _ _)
    · exact issueHead_accounts h hs hi hc _ _

theorem claimEnds_accounts {r : RegionId} {l page : Nat} (h : s.portAccounts) (hi : (s.port p).inFlight = none) :
    (claimEnds p r l page s).portAccounts :=
  issueRecordWrite_accounts (setWriter_accounts h _ _ nofun) (by simpa using hi) (by simp)

theorem pinCheck_accounts {r : RegionId} {l : Nat} (h : s.portAccounts) : (pinCheck r l s).2.portAccounts :=
  h.same (pinCheck_same (.refl s)) (by simp)

theorem recycleStep_accounts {r : RegionId} {l : Nat} {rc : Recycle} {page : Nat} (h : s.portAccounts)
    (hi : (s.port p).inFlight = none) : (recycleStep p r l rc page s).portAccounts := by
  have hcheck := pinCheck_accounts (r := r) (l := rc.oldPage) h
  have hidle : ((pinCheck r rc.oldPage s).2.port p).inFlight = none := by simpa using hi
  unfold recycleStep
  dsimp only
  split
  · exact claimEnds_accounts hcheck hidle
  · exact raiseEvent_accounts (setWriter_accounts hcheck _ _ fun _ => hidle)
  · exact hcheck

theorem recycleLookup_accounts {r : RegionId} {l : Nat} (h : s.portAccounts) (hi : (s.port p).inFlight = none) :
    (recycleLookup p r l s).portAccounts := by
  unfold recycleLookup
  dsimp only
  split
  · exact recycleStep_accounts (lookupSlot_accounts h) (by simpa using hi)
  · exact setWriter_accounts (lookupSlot_accounts h) _ _ fun _ => by simpa using hi

theorem wrapThenRecycle_accounts {r : RegionId} {l : Nat} (h : s.portAccounts) (hi : (s.port p).inFlight = none) :
    (wrapThenRecycle p r l s).portAccounts :=
  recycleLookup_accounts (regionState_accounts h rfl rfl) hi

theorem freshPage_accounts {r : RegionId} {l page : Nat} (h : s.portAccounts) (hi : (s.port p).inFlight = none) :
    (freshPage p r l page s).portAccounts := by
  have hcounted : (countRolling r l s).portAccounts := h.same (countRolling_same (.refl s)) (by simp)
  have hupdated : (writeUpdate r l page (issueDirectory (.write r l page p) (countRolling r l s))).portAccounts :=
    (issueDirectory_accounts (op := .write r l page p) hcounted).frame (by simp)
  exact setWriter_accounts hupdated _ _ fun _ => by simpa using hi

theorem pageClaim_accounts {r : RegionId} {l : Nat} (h : s.portAccounts) (hi : (s.port p).inFlight = none) :
    (pageClaim p r l s).portAccounts := by
  unfold pageClaim
  dsimp only
  split
  · split
    · next page t hc =>
      have hframe := claimPage_frame hc
      obtain ⟨-, -, -, -, -, -, -, -, -, hscan⟩ := claimPage_alloc hc
      exact freshPage_accounts (h.frame (by simp [hframe, hscan])) (by simp [hframe, hi])
    · exact wrapThenRecycle_accounts h hi
  · exact wrapThenRecycle_accounts h hi

theorem takeHead_accounts (h : s.portAccounts) : (takeHead p s).portAccounts := by
  unfold takeHead
  dsimp only
  split
  · exact h
  · split
    · next ready =>
      obtain ⟨-, -, hi, hc⟩ := ready
      split
      · exact pageClaim_accounts h hi
      · split
        · exact issueRecordWrite_accounts h hi hc
        · exact h
    · exact h

theorem capturingNotice_accounts (h : s.portAccounts) : (capturingNotice p s).portAccounts :=
  takeHead_accounts (setWriter_accounts h _ _ nofun)

/-- A STARVED writer has a claim, and so no write in flight (R118). -/
theorem pinEndNotice_accounts {r : RegionId} (h : s.portAccounts) : (pinEndNotice r s).portAccounts := by
  unfold pinEndNotice
  split
  · exact h
  · next p _ =>
    split
    · next hc => exact recycleStep_accounts h ((h.kept p).claimed (by simp [hc]))
    · exact h

/-! ### The fetch engine -/

theorem becomeClosed_accounts {w : WindowId} (h : s.portAccounts) : (becomeClosed w s).portAccounts := by
  unfold becomeClosed
  dsimp only
  split
  · exact pinEndNotice_accounts (setWindow_accounts h)
  · exact setWindow_accounts h

theorem closeAfterFetch_accounts {w : WindowId} (h : s.portAccounts) : (closeAfterFetch w s).portAccounts := by
  unfold closeAfterFetch
  dsimp only
  split
  · exact makeReply_accounts (becomeClosed_accounts h)
  · exact becomeClosed_accounts h

theorem fetchEnd_accounts {w : WindowId} {f : Fetch} {status : Status} {records : List (List Byte)} (h : s.portAccounts) :
    (fetchEnd w f status records s).portAccounts := by
  unfold fetchEnd
  dsimp only
  split
  · exact closeAfterFetch_accounts (setWindow_accounts (makeReply_accounts h))
  · exact setWindow_accounts (makeReply_accounts h)

theorem fetchEndByCause_accounts {w : WindowId} {f : Fetch} {cause : EndCause} (h : s.portAccounts) :
    (fetchEndByCause w f cause s).portAccounts := by
  cases cause <;> exact fetchEnd_accounts h

theorem fetchRead_accounts {w : WindowId} {f : Fetch} {page : Nat} (h : s.portAccounts) :
    (fetchRead w f page s).portAccounts := issueRead_accounts (setWindow_accounts h)

theorem fetchNext_accounts {w : WindowId} {f : Fetch} (h : s.portAccounts) : (fetchNext w f s).portAccounts := by
  unfold fetchNext
  dsimp only
  split
  · exact fetchRead_accounts (lookupSlot_accounts h)
  · exact setWindow_accounts (lookupSlot_accounts h)

theorem fetchAnswer_accounts {w : WindowId} {page : Option Nat} (h : s.portAccounts) :
    (fetchAnswer w page s).portAccounts := by
  unfold fetchAnswer
  split
  · exact h
  · split
    · exact fetchEndByCause_accounts h
    · exact fetchRead_accounts h
    · exact fetchEndByCause_accounts h

theorem fetchRecord_accounts {w : WindowId} {f : Fetch} {bytes : List Byte} (h : s.portAccounts) :
    (fetchRecord w f bytes s).portAccounts := by
  unfold fetchRecord
  dsimp only
  split
  · exact fetchEnd_accounts h
  · split
    · exact fetchEnd_accounts h
    · exact fetchNext_accounts h

theorem closeWindows_accounts (h : s.portAccounts) : (closeWindows s).portAccounts := by
  unfold closeWindows
  induction List.finRange 4 generalizing s with
  | nil => exact h
  | cons w ws ih =>
    refine ih ?_
    unfold restartWindow
    dsimp only
    split
    · exact setWindow_accounts h
    · split
      · exact becomeClosed_accounts h
      · exact h

end Sys2Proof.Machine
end

section
/-! SUPPORT. The accounts of the capture ports through stops and faults, BIND, the walks and RESTART: the operations that change
a region's state, a binding or a port's halt. -/

namespace Sys2Proof.Machine

variable {s t : State} {p : PortId} {q : Port} {r : RegionId}

/-! ### Stops and faults (R52, R62, R116) -/

/-- A stop notice counts what it flushes (R104, R116). -/
theorem PortKept.stopped (k : PortKept s p q) : PortKept s p q.stopped where
  balanced := k.balanced.update rfl (by simp only [Port.stopped, List.length_nil]; omega)
  staged hne := absurd rfl hne
  issued := k.issued
  once := k.once
  claimed hne := k.claimed fun hc => hne (by simp [Port.stopped, hc, claimAfterStop])
  restarting := k.restarting
  walking := k.walking

/-- A region leaves capture and its writer takes the stop notice, so that nothing stays staged for it. -/
theorem leaveCapture_accounts (h : s.portAccounts) (hr : (s.region r).state ≠ .releasing) (hd : t.device = s.device)
    (hn : t.alloc.scanner = s.alloc.scanner) (hs : t.store = s.store)
    (hb : (t.region r).boundPort = (s.region r).boundPort) (ho : ∀ i, i ≠ r → t.region i = s.region i)
    (hp : ∀ i, t.port i = if (s.region r).boundPort = some i then (s.port i).stopped else s.port i) : t.portAccounts := by
  obtain ⟨hmirror, hwalk, kept⟩ := (State.portAccounts_iff s).1 h
  refine (State.portAccounts_iff t).2 ⟨hmirror.of_eq (fun i => ?_) fun i => ?_, hwalk.mono hn fun i hi => ?_, fun i => ?_⟩
  · rw [hp]
    split <;> rfl
  · by_cases hi : i = r
    · rw [hi, hb]
    · rw [ho i hi]
  · rw [ho i fun e => hr (e ▸ hi)]
    exact hi
  · rw [hp]
    split
    · exact (kept i).stopped.follow_store (.of_eq hd hn) (fun hne => absurd rfl hne) (by rw [hs]) fun w => by rw [hs]
    · next hbound =>
      refine (kept i).follow_store (.of_eq hd hn) (fun _ x hx hc => ?_) (by rw [hs]) fun w => by rw [hs]
      have hne : x ≠ r := fun e => hbound (e ▸ (hmirror i x).1 hx)
      rwa [ho x hne]

theorem stopRegion_accounts {cause : StopCause} (h : s.portAccounts) (hr : (s.region r).state ≠ .releasing) :
    (stopRegion r cause s).portAccounts :=
  leaveCapture_accounts h hr (by simp) (by simp [stopRegion_eq]) (by simp) (by simp)
    (fun i hi => by rw [stopRegion_region, if_neg hi]) (stopRegion_port r cause s)

theorem faultQuiet_accounts (h : s.portAccounts) (hr : (s.region r).state ≠ .releasing) : (faultQuiet r s).portAccounts :=
  leaveCapture_accounts h hr (by simp [faultQuiet]) (by simp [faultQuiet]) (by simp [faultQuiet])
    (by simp [faultQuiet_region, Region.faulted]) (fun i hi => by rw [faultQuiet_region, if_neg hi]) (faultQuiet_port r s)

theorem faultReport_accounts (h : s.portAccounts) : (faultReport r s).portAccounts := by
  by_cases hc : (s.region r).capturing = true ∨ (s.region r).state = .stopped
  · rw [faultReport_eq hc]
    refine raiseEvent_accounts (raiseEvent_accounts (faultQuiet_accounts h ?_))
    rcases hc with hc | hc
    · exact Region.capturing_not_releasing hc
    · simp [hc]
  · unfold faultReport
    dsimp only
    rw [if_neg hc]
    split
    · exact raiseEvent_accounts h
    · exact h

theorem stopChecks_accounts (h : s.portAccounts) (hr : (s.region r).state ≠ .releasing) :
    (stopChecks r s).portAccounts := by
  unfold stopChecks
  dsimp only
  split
  · exact stopRegion_accounts h hr
  · split
    · exact stopRegion_accounts h hr
    · exact h

theorem completionReport_accounts (h : s.portAccounts) : (completionReport r s).portAccounts := by
  have hcounted := regionState_accounts (r := r) (x := { s.region r with committed := (s.region r).committed + 1 }) h rfl rfl
  unfold completionReport
  dsimp only
  split
  · next hc =>
    exact stopChecks_accounts (hcounted.frame (by simp)) (by simpa using Region.capturing_not_releasing hc)
  · split
    · exact raiseEvent_accounts hcounted
    · exact h

/-- The write on the port is the one in flight of its port: it is stored, and no longer issued (R112). -/
theorem writeStored_accounts {st : Store} {w : RecordWrite} (h : s.portAccounts)
    (hport : s.store.port = some (.recordWrite p w)) (hw : st.writes = s.store.writes) (hp : st.port = none) :
    ((s.setStore st).setPort p { s.port p with
      counts := { (s.port p).counts with stored := (s.port p).counts.stored + 1 }, inFlight := none }).portAccounts := by
  have kp := h.kept p
  have hflight : (s.port p).inFlight.isSome = true := kp.issued.2 (.inr ⟨w, hport⟩)
  have hfree : ∀ i x, st.port ≠ some (.recordWrite i x) := by simp [hp]
  refine setStorePort_accounts h rfl (fun i hi => ⟨?others, fun x hx => absurd hx (hfree i x)⟩)
    ⟨?balanced, kp.staged, ?issued, fun x hx => absurd hx (hfree p x), fun _ => rfl, kp.restarting,
      fun page hs => ⟨(kp.walking page hs).1, rfl⟩⟩
  case others => simp [Store.issued, hport, hw, hp, Ne.symm hi]
  case balanced =>
    have := kp.balanced
    simp only [Port.balanced, hflight, if_true, Option.isSome_none, Bool.false_eq_true, if_false] at this ⊢
    omega
  case issued => simp [Store.issued, hw, hp, kp.once w hport]

theorem recordWritten_accounts {w : RecordWrite} (h : s.portAccounts) (hport : s.store.port = some (.recordWrite p w)) :
    (recordWritten p w s).portAccounts :=
  takeHead_accounts (completionReport_accounts (writeStored_accounts
    (s := s) (st := (storeBytes (w.page * Config.pageBytes + w.offset) w.bytes (freePort s)).store) h hport rfl rfl))

/-! ### BIND (R106, R107) -/

/-- The regions after a binding's move: the target bound to the port, the region it was bound to before bound to none. -/
theorem moveBinding_region (p : PortId) (target : Option RegionId) (s : State) (i : RegionId) :
    (moveBinding p target s).region i = if target = some i then { s.region i with boundPort := some p }
      else if (s.port p).binding = some i then { s.region i with boundPort := none } else s.region i := by
  unfold moveBinding setBoundPort
  cases hb : (s.port p).binding with
  | none =>
    cases target with
    | none => simp
    | some r => rcases eq_or_ne i r with rfl | hi <;> simp [*, Ne.symm]
  | some old =>
    cases target with
    | none => rcases eq_or_ne i old with rfl | hi <;> simp [*, Ne.symm]
    | some r =>
      rcases eq_or_ne r old with rfl | hr
      · rcases eq_or_ne i r with rfl | hi <;> simp [*, Ne.symm]
      · rcases eq_or_ne i r with rfl | hi
        · simp [hr]
        · rcases eq_or_ne i old with rfl | ho <;> simp [*, Ne.symm]

/-- A binding's move changes the regions only. -/
theorem moveBinding_eq (p : PortId) (target : Option RegionId) (s : State) :
    moveBinding p target s = s.setRegions (moveBinding p target s).regions := by
  unfold moveBinding setBoundPort
  repeat' split
  all_goals rfl

theorem presentCapturing_iff (p : PortId) (s : State) :
    presentCapturing p s = true ↔ ∃ r, (s.port p).binding = some r ∧ (s.region r).capturing = true := by
  unfold presentCapturing
  cases (s.port p).binding <;> simp

theorem targetUnready_iff (target : Option RegionId) (s : State) : targetUnready target s = true ↔
    ∃ r, target = some r ∧ ((s.region r).capturing = true ∨ (s.region r).state = .unused) := by
  unfold targetUnready
  cases target <;> simp

theorem targetTaken_iff (p : PortId) (target : Option RegionId) (s : State) : targetTaken p target s = true ↔
    ∃ r x, target = some r ∧ (s.region r).boundPort = some x ∧ x ≠ p := by
  unfold targetTaken
  cases target with
  | none => simp
  | some r => cases hb : (s.region r).boundPort <;> simp [hb]

/-- The tests of a BIND that passes (R106). -/
theorem bindRefusal_eq_none {target : Option RegionId} (h : bindRefusal p target s = none) :
    ¬presentCapturing p s = true ∧ ¬targetUnready target s = true ∧ ¬targetTaken p target s = true ∧
      ¬(s.port p).working = true := by
  unfold bindRefusal at h
  split at h
  · cases h
  · next hpresent =>
    split at h
    · cases h
    · next hready =>
      split at h
      · cases h
      · next htaken =>
        split at h
        · cases h
        · next hwork => exact ⟨hpresent, hready, htaken, hwork⟩

/-- The bound port of each region follows the binding that moves, the target being free for the port (R40). -/
theorem moveBinding_mirror {target : Option RegionId} (h : s.bindingsMirror) (ht : ¬targetTaken p target s = true)
    (hq : q.binding = target) : ((moveBinding p target s).setPort p q).bindingsMirror := by
  intro i x
  have hp : (moveBinding p target s).port i = s.port i := by rw [moveBinding_eq]; rfl
  rw [State.setPort_port, State.setPort_region, moveBinding_region, hp]
  have hi := h i x
  by_cases hip : i = p
  · subst hip
    rw [if_pos rfl, hq]
    split
    · next htarget => simp [htarget]
    · next htarget =>
      split
      · simp [htarget]
      · next hold => simp [htarget, ← hi, hold]
  · rw [if_neg hip]
    split
    · next htarget =>
      have hfree : (s.region x).boundPort ≠ some i := fun hb =>
        ht ((targetTaken_iff p target s).2 ⟨x, i, htarget, hb, hip⟩)
      simp [hi, hfree, Ne.symm hip]
    · split
      · next hold => simp [hi, (h p x).1 hold, Ne.symm hip]
      · exact hi

/-- A BIND that passes finds nothing staged, in flight or under way at its port, and starts its accounts at 0 (R107). -/
theorem bindPasses_accounts {target : Option RegionId} (h : s.portAccounts) (hr : bindRefusal p target s = none)
    (markerEnable overrunEnable : Bool) : ((moveBinding p target s).setPort p
      (((moveBinding p target s).port p).bound target markerEnable overrunEnable)).portAccounts := by
  obtain ⟨hmirror, hwalk, kept⟩ := (State.portAccounts_iff s).1 h
  obtain ⟨hpresent, -, htaken, hwork⟩ := bindRefusal_eq_none hr
  rw [presentCapturing_iff] at hpresent
  rw [Port.working_iff, not_or, Bool.not_eq_true, Option.isSome_eq_false_iff, Option.isNone_iff_eq_none] at hwork
  have hregion := moveBinding_region p target s
  have hstate : ∀ i, ((moveBinding p target s).region i).state = (s.region i).state := fun i => by
    rw [hregion]
    split
    · rfl
    · split <;> rfl
  have hmoved := moveBinding_mirror (q := ((moveBinding p target s).port p).bound target markerEnable overrunEnable)
    hmirror htaken rfl
  rw [moveBinding_eq] at hstate hmoved ⊢
  refine (State.portAccounts_iff _).2 ⟨hmoved, hwalk.mono rfl fun i hi => (hstate i).trans hi, fun i => ?_⟩
  rw [State.setPort_port]
  split
  · next hi =>
    subst hi
    have ki := kept i
    have hstaged : (s.port i).staging = [] := by
      by_contra hne
      exact hpresent (ki.staged hne).2
    exact ⟨by simp [Port.balanced, Port.bound, PortCounts.zero, hstaged, hwork.1], fun hne => absurd hstaged hne, ki.issued,
      ki.once, nofun, ki.restarting, ki.walking⟩
  · refine (kept i).follow (.of_eq rfl rfl) (fun _ x _ hc => ?_) Iff.rfl (kept i).once
    simpa only [Region.capturing, State.setPort_region, hstate] using hc

/-! ### The walks and RESTART (2.8, R119, R191, R192) -/

/-- The scanner goes on, or walks no more. -/
theorem setScanner_accounts {x : Scanner} (h : s.portAccounts)
    (hw : ∀ r page n m tag stale, x = .releaseWalk r page n m tag stale → (s.region r).state = .releasing)
    (hr : ∀ page, x = .restartWalk page → ∃ page, s.alloc.scanner = .restartWalk page) :
    (s.setAlloc { s.alloc with scanner := x }).portAccounts :=
  h.follow ⟨id, hr⟩ hw (fun _ => id) (fun _ => rfl) (fun _ => rfl) rfl fun _ _ => Iff.rfl

section
variable {page : Nat} {tag : Byte} {stale : Bool}

/-- The region of a walk is RELEASING, and so has nothing staged for it: it may become IDLE as the walk ends. -/
theorem releaseWalkEnds_accounts {n m returned retired : Nat} (h : s.portAccounts)
    (hs : s.alloc.scanner = .releaseWalk r page n m tag stale) :
    (releaseWalkEnds r returned retired tag stale s).portAccounts := by
  have hreleasing := h.walks r page n m tag stale hs
  have hends : ((s.setRegion r { s.region r with state := .idle }).setAlloc
      { s.alloc with scanner := .idle }).portAccounts := by
    refine h.follow ⟨id, nofun⟩ nofun (fun i hi => ?_) (fun i => ?_) (fun _ => rfl) rfl fun _ _ => Iff.rfl
    · have hne : i ≠ r := fun e => Region.capturing_not_releasing hi (e ▸ hreleasing)
      simpa [hne] using hi
    · by_cases hi : i = r <;> simp [hi]
  exact hends.frame (by simp [releaseWalkEnds])

theorem releaseAdvance_accounts {n m returned retired : Nat} (h : s.portAccounts)
    (hs : s.alloc.scanner = .releaseWalk r page n m tag stale) :
    (releaseAdvance r page returned retired tag stale s).portAccounts := by
  unfold releaseAdvance
  split
  · refine setScanner_accounts h ?_ nofun
    rintro i _ _ _ _ _ ⟨⟩
    exact h.walks r page n m tag stale hs
  · exact releaseWalkEnds_accounts h hs

end

theorem returnPage_accounts {page : Nat} (h : s.portAccounts) : (returnPage r page s).portAccounts := h.frame (by simp)

theorem retireOwned_accounts {page : Nat} {origin : RetireOrigin} (h : s.portAccounts) :
    (retireOwned r page origin s).portAccounts := h.frame (by simp)

/-- The walk of RESTART begins with the store idle, and so with no write in flight (R34). -/
theorem restartWalkBegin_accounts (h : s.portAccounts) (hd : s.device = .restarting) (hi : s.store.idle = true) :
    (purgeAll (s.setAlloc { s.alloc with scanner := .restartWalk Config.directoryPages })).portAccounts := by
  obtain ⟨hmirror, -, kept⟩ := (State.portAccounts_iff s).1 h
  obtain ⟨hport, -, hwrites, -⟩ := (Store.idle_iff s.store).1 hi
  refine (State.portAccounts_iff _).2 ⟨hmirror, nofun, fun p => { kept p with walking := fun _ _ => ?_ }⟩
  refine ⟨(kept p).restarting hd, ?_⟩
  have hidle : ¬(s.port p).inFlight.isSome = true := by
    rw [(kept p).issued]
    simp [Store.issued, hport, hwrites p]
  exact Option.not_isSome_iff_eq_none.1 hidle

/-- A port that RESTART clears is halted, with nothing staged or in flight (R119). -/
theorem PortKept.cleared (k : PortKept s p q) {page : Nat} (hs : s.alloc.scanner = .restartWalk page)
    (hd : t.device ≠ .restarting) (hn : t.alloc.scanner = .idle) (ht : t.store = s.store) : PortKept t p q.cleared := by
  obtain ⟨hhalted, hflight⟩ := k.walking page hs
  have hstaged := k.staging_of_halted hhalted
  refine ⟨?_, fun hne => absurd hstaged hne, ?_, ?_, k.claimed, fun h => absurd h hd, fun _ h => ?_⟩
  · simp [Port.balanced, Port.cleared, PortCounts.zero, hstaged, hflight]
  · rw [ht]
    exact k.issued
  · rw [ht]
    exact k.once
  · rw [hn] at h
    cases h

theorem restartCompletes_accounts {page : Nat} (h : s.portAccounts) (hs : s.alloc.scanner = .restartWalk page) :
    (restartCompletes s).portAccounts := by
  obtain ⟨hmirror, -, kept⟩ := (State.portAccounts_iff s).1 h
  obtain ⟨hstore, -, -, -, -, hscan⟩ := restartCompletes_ledger s
  have hregion : ∀ i, (restartCompletes s).region i = (s.region i).restarted := fun i => by
    unfold restartCompletes restartReply restartEvents finishRestartWalk
    dsimp only
    split <;> simp
  have hport : ∀ i, (restartCompletes s).port i = (s.port i).cleared := fun i => by
    unfold restartCompletes restartReply restartEvents finishRestartWalk
    dsimp only
    split <;> simp
  have hdevice : (restartCompletes s).device = .run := by
    unfold restartCompletes restartReply restartEvents finishRestartWalk
    dsimp only
    split <;> simp
  generalize restartCompletes s = t at *
  refine (State.portAccounts_iff t).2 ⟨hmirror.of_eq (fun i => by rw [hport]; rfl) fun i => ?_, fun _ _ _ _ _ _ k => ?_,
    fun i => ?_⟩
  · rw [hregion, Region.restarted]
    split <;> rfl
  · rw [hscan] at k
    cases k
  · rw [hport]
    exact (kept i).cleared hs (by simp [hdevice]) hscan hstore

theorem abandonRelease_scanner (s : State) : (∀ r page n m tag stale,
      (abandonRelease s).alloc.scanner ≠ .releaseWalk r page n m tag stale) ∧
    ∀ page, (abandonRelease s).alloc.scanner = .restartWalk page → s.alloc.scanner = .restartWalk page := by
  unfold abandonRelease
  split
  · simp
  · next hne => exact ⟨hne, fun _ => id⟩

theorem abandonRelease_blocks (s : State) : (abandonRelease s).store = s.store ∧
    (∀ i, (abandonRelease s).region i = s.region i) ∧ ∀ i, (abandonRelease s).port i = s.port i := by
  unfold abandonRelease
  split <;> simp

/-- RESTART halts every port, and flushes what is staged (R119, R191); a release walk it has abandoned by then. -/
theorem haltPorts_accounts (h : s.portAccounts) (hstore : t.store = s.store) (hregion : ∀ i, t.region i = s.region i)
    (hport : ∀ i, t.port i = s.port i)
    (hnone : ∀ r page n m tag stale, t.alloc.scanner ≠ .releaseWalk r page n m tag stale)
    (hwalking : ∀ page, t.alloc.scanner = .restartWalk page → s.alloc.scanner = .restartWalk page) :
    (haltPorts t).portAccounts := by
  obtain ⟨hmirror, -, kept⟩ := (State.portAccounts_iff s).1 h
  have hhalt : ∀ i, (haltPorts t).port i = { (s.port i).stopped with halted := true } := fun i => by
    rw [haltPorts, State.setPorts_port, vector_get_map, State.ports_get, hport]
  refine (State.portAccounts_iff _).2 ⟨hmirror.of_eq (fun i => by rw [hhalt]; rfl) fun i => congrArg _ (hregion i),
    fun r page n m tag stale k => absurd k (hnone r page n m tag stale), fun i => ?_⟩
  obtain ⟨hbalanced, -, hissued, honce, hclaimed, -, hwalk⟩ := (kept i).stopped
  have hkept : (haltPorts t).store = s.store := hstore
  rw [hhalt]
  refine ⟨hbalanced, fun hne => absurd rfl hne, ?_, ?_, hclaimed, fun _ => rfl, fun page hs => ⟨rfl, ?_⟩⟩
  · rwa [hkept]
  · rwa [hkept]
  · exact (hwalk page (hwalking page hs)).2

theorem beginRestart_accounts {tag : Byte} (h : s.portAccounts) : (beginRestart tag s).portAccounts := by
  unfold beginRestart
  dsimp only
  refine closeWindows_accounts ?_
  obtain ⟨hnone, hwalking⟩ := abandonRelease_scanner
    (((s.setLink { s.link with engine := .held }).setDevice .restarting).setRestart (some ⟨tag, false⟩))
  obtain ⟨hstore, hregion, hport⟩ := abandonRelease_blocks
    (((s.setLink { s.link with engine := .held }).setDevice .restarting).setRestart (some ⟨tag, false⟩))
  exact haltPorts_accounts h hstore hregion hport hnone hwalking

end Sys2Proof.Machine
end

section
/-! SUPPORT. The accounts of the capture ports through every command: `exec_accounts`. -/

namespace Sys2Proof.Machine

variable {s t : State} {p : PortId} {r : RegionId}

/-- The state that a command comes to, if it comes to one, keeps the accounts of the ports. -/
def AccountsKept (o : Result) : Prop := ∀ t, o = .next t → t.portAccounts

theorem AccountsKept.next (h : t.portAccounts) : AccountsKept (.next t) := by
  rintro _ ⟨⟩
  exact h

theorem AccountsKept.inStore {op : StoreOp} {o : Result} (h : AccountsKept o) :
    AccountsKept (if op.inStore then o else .fault .outsideStore) := by
  split
  · exact h
  · exact fun _ k => nomatch k

/-! ### HARD_RESET and initialization -/

/-- A record write holds the store port neither before nor after. -/
theorem otherOp_iff {a b : Option StoreOp} (ha : ∀ p w, a ≠ some (.recordWrite p w))
    (hb : ∀ p w, b ≠ some (.recordWrite p w)) (p : PortId) (w : RecordWrite) :
    a = some (.recordWrite p w) ↔ b = some (.recordWrite p w) :=
  iff_of_false (ha p w) (hb p w)

theorem execHardReset_accounts (cause : ResetCause) (rate : BitVec 2) (mode : InitMode) (s : State) :
    AccountsKept (execHardReset cause rate mode s) :=
  .next (State.reset_portAccounts.follow (.of_eq rfl rfl) State.reset_walkReleasing (fun _ => id) (fun _ => rfl) (fun _ => rfl)
    rfl (otherOp_iff (by cases mode <;> exact nofun) nofun))

theorem retirePage_scanner (page : Nat) (origin : RetireOrigin) (owner : Option RegionId) (s : State) :
    (retirePage page origin owner s).alloc.scanner = s.alloc.scanner := by
  rcases Nat.lt_or_ge s.alloc.retiredList.length 512 with hl | hl
  · rw [retirePage_listed origin owner hl]
    rfl
  · rw [retirePage_unlisted origin owner hl]
    rfl

theorem reportSwept_store (page : Nat) (good : Bool) (s : State) : (reportSwept page good s).store = s.store := by
  unfold reportSwept
  split
  · rfl
  · split <;> simp

theorem reportSwept_accounts {page : Nat} {good : Bool} (h : s.portAccounts) : (reportSwept page good s).portAccounts := by
  unfold reportSwept
  split
  · exact regionState_accounts h rfl rfl
  · split
    · exact h
    · exact h.frame (by simp [retirePage_scanner])

theorem completeInitialization_accounts (h : s.portAccounts) (hn : ∀ p w, s.store.port ≠ some (.recordWrite p w)) :
    (completeInitialization s).portAccounts := by
  rw [completeInitialization_eq]
  have hserving : (servingState s).portAccounts :=
    h.follow ⟨nofun, fun page k => ⟨page, k⟩⟩ h.walks (fun _ => id) (fun _ => rfl) (fun _ => rfl) rfl
      (otherOp_iff nofun hn)
  exact evaluateNotice_accounts (raiseEvent_accounts hserving)

/-- The next sweep step or clear takes the port from the one before it (R15, R16). -/
theorem initialStep_accounts {progress : Nat} {op : StoreOp} (h : s.portAccounts)
    (hn : ∀ p w, s.store.port ≠ some (.recordWrite p w)) (ho : op.initial = true) :
    (s.setStore { s.store with initProgress := progress, port := some op }).portAccounts :=
  h.follow (.of_eq rfl rfl) h.walks (fun _ => id) (fun _ => rfl) (fun _ => rfl) rfl
    (otherOp_iff (by rintro p w ⟨⟩; cases ho) hn)

theorem sweepAdvance_accounts {page : Nat} (h : s.portAccounts) (hn : ∀ p w, s.store.port ≠ some (.recordWrite p w)) :
    (sweepAdvance page s).portAccounts := by
  unfold sweepAdvance
  split
  · exact initialStep_accounts h hn rfl
  · exact completeInitialization_accounts h hn

theorem execSweepStepComplete_accounts (words : List (Nat × WordRead)) (h : s.portAccounts) :
    AccountsKept (execSweepStepComplete words s) := by
  unfold execSweepStepComplete
  split
  · next page hp =>
    have hjudged := reportSwept_accounts (page := page) (good := !(List.range Config.pageWords).any (sweepWordFails page words))
      (readWords_accounts (first := page * Config.pageWords) (count := Config.pageWords)
        (cells := fun i => (wordReadAt words i).outcome)
        (storeBytes_accounts (a := page * Config.pageBytes) (bytes := patternPage page) h))
    refine .inStore (.next (sweepAdvance_accounts hjudged ?_))
    rw [reportSwept_store]
    exact fun _ _ k => absurd (hp.symm.trans k) nofun
  · exact .next h

theorem execDirectoryClearComplete_accounts (h : s.portAccounts) : AccountsKept (execDirectoryClearComplete s) := by
  unfold execDirectoryClearComplete
  split
  · next page hp =>
    refine .inStore ?_
    have hcleared := storeBytes_accounts (a := page * Config.pageBytes) (bytes := List.replicate Config.pageBytes 0) h
    have hother : ∀ p w, s.store.port ≠ some (.recordWrite p w) := by simp [hp]
    dsimp only
    split
    · exact .next (initialStep_accounts hcleared hother rfl)
    · exact .next (completeInitialization_accounts hcleared hother)
  · exact .next h

/-! ### Records at a capture port (R100 to R103) -/

theorem countPort_accounts {f : PortCounts → PortCounts} (h : s.portAccounts)
    (hf : ∀ q : Port, q.balanced → (q.count f).balanced) : (s.setPort p ((s.port p).count f)).portAccounts :=
  setPort_accounts h rfl { h.kept p with balanced := hf _ (h.kept p).balanced }

theorem dropIdle_accounts (h : s.portAccounts) : (dropIdle p s).portAccounts :=
  countPort_accounts h fun _ k => k.update rfl (by simp only [Port.count]; omega)

theorem shortRecord_accounts (h : s.portAccounts) : (shortRecord p s).portAccounts :=
  countPort_accounts h fun _ k => k.update rfl (by simp only [Port.count]; omega)

theorem dropFull_accounts (h : s.portAccounts) : (dropFull p s).portAccounts := by
  have hdropped := countPort_accounts (p := p)
    (f := fun c => { c with arrived := c.arrived + 1, dropFull := c.dropFull + 1 }) h
    fun _ k => k.update rfl (by simp only [Port.count]; omega)
  unfold dropFull
  dsimp only
  split
  · exact raiseEvent_accounts hdropped
  · exact hdropped

theorem setAssembly_accounts {assembly : Option Assembly} (h : s.portAccounts) :
    (s.setPort p { s.port p with assembly := assembly }).portAccounts :=
  setPort_accounts h rfl { h.kept p with }

/-- A record is staged only at a port that is not halted and whose region captures (R102). -/
theorem stageRecord_accounts {record : StagedRecord} (h : s.portAccounts) (hh : (s.port p).halted = false)
    (hc : ∃ r, (s.port p).binding = some r ∧ (s.region r).capturing = true) : (stageRecord p record s).portAccounts := by
  have kp := h.kept p
  have hstaged := setPort_accounts (q := { s.port p with staging := (s.port p).staging ++ [record] }.count
      (fun c => { c with arrived := c.arrived + 1 })) h rfl { kp with
    balanced := kp.balanced.update rfl (by simp only [Port.count, List.length_append, List.length_singleton]; omega)
    staged := fun _ => ⟨hh, hc⟩ }
  unfold stageRecord
  dsimp only
  split
  · exact storeGrant_accounts (takeHead_accounts hstaged)
  · exact hstaged

theorem recordArrives_accounts {record : StagedRecord} {size : Nat} (h : s.portAccounts)
    (hb : (s.port p).binding = some r) : (recordArrives p r record size s).portAccounts := by
  unfold recordArrives
  dsimp only
  split
  · exact dropIdle_accounts h
  · next hidle =>
    simp only [not_or, Bool.not_eq_true, Bool.not_eq_false] at hidle
    obtain ⟨hhalted, hcapturing, -⟩ := hidle
    split
    · exact dropFull_accounts h
    · exact stageRecord_accounts h hhalted ⟨r, hb, hcapturing⟩

theorem takePortByte_accounts (data : Byte) (sor mrk : Bool) (h : s.portAccounts) :
    (takePortByte p data sor mrk s).portAccounts := by
  unfold takePortByte
  split
  · split
    · exact dropIdle_accounts h
    · exact h
  · next r hb =>
    split
    · split
      · exact setAssembly_accounts h
      · exact h
    · split
      · exact setAssembly_accounts (shortRecord_accounts h)
      · split
        · exact recordArrives_accounts (setAssembly_accounts h) (by simpa using hb)
        · exact setAssembly_accounts h

/-! ### Completions of store operations -/

theorem execRecordWriteComplete_accounts (h : s.portAccounts) : AccountsKept (execRecordWriteComplete s) := by
  unfold execRecordWriteComplete
  split
  · next p w hp => exact .inStore (.next (storeGrant_accounts (recordWritten_accounts h hp)))
  · exact .next h

/-- A writer that goes on with a recycle has a claim, and so no write in flight (R118). -/
theorem writerAnswer_accounts {page : Option Nat} (h : s.portAccounts) : (writerAnswer p r page s).portAccounts := by
  unfold writerAnswer
  split
  · next _ hc => exact recycleStep_accounts h ((h.kept p).claimed (by simp [hc]))
  · exact endClaim_accounts h

theorem answerRequester_accounts {page : Option Nat} {who : Requester} (h : s.portAccounts) :
    (answerRequester r page who s).portAccounts := by
  cases who with
  | writer p => exact writerAnswer_accounts h
  | window w => exact fetchAnswer_accounts h

theorem fillCompletes_accounts {slot : Nat} {who : Requester} {page : Option Nat} (h : s.portAccounts) :
    (fillCompletes r slot who page s).portAccounts := by
  cases page with
  | some v => exact answerRequester_accounts (h.frame (by simp))
  | none => exact answerRequester_accounts (faultReport_accounts h)

theorem execDirectoryReadComplete_accounts (word : WordRead) (h : s.portAccounts) :
    AccountsKept (execDirectoryReadComplete word s) := by
  unfold execDirectoryReadComplete
  split
  · next r slot who hp =>
    have hread := readWords_accounts (first := slotWord r slot) (count := 1) (cells := fun _ => word.outcome)
      (freePort_accounts h (by simp [hp]))
    exact .inStore (.next (storeGrant_accounts (fillCompletes_accounts hread)))
  · exact .next h

theorem directoryWritten_accounts {page : Nat} (h : s.portAccounts) : (directoryWritten p r page s).portAccounts := by
  unfold directoryWritten
  split
  · next _ hc => exact claimEnds_accounts h ((h.kept p).claimed (by simp [hc]))
  · exact endClaim_accounts h

theorem execDirectoryWriteComplete_accounts (word : WordRead) (h : s.portAccounts) :
    AccountsKept (execDirectoryWriteComplete word s) := by
  unfold execDirectoryWriteComplete
  split
  · next r slot page p hp =>
    have hread := readWords_accounts (first := slotWord r slot) (count := 1) (cells := fun _ => word.outcome)
      (freePort_accounts h (by simp [hp]))
    refine .inStore ?_
    dsimp only
    split
    · exact .next (storeGrant_accounts (directoryWritten_accounts (storeBytes_accounts hread)))
    · exact .next (storeGrant_accounts (faultReport_accounts (endClaim_accounts (leaveUnreadable_accounts hread))))
  · exact .next h

theorem recordError_accounts {w : WindowId} {page k : Nat} (h : s.portAccounts) : (recordError w page k s).portAccounts :=
  h.same (recordError_same (.refl s)) (by simp [recordError])

theorem recordReadTaken_accounts {w : WindowId} {op : RecordRead} {uncorrectable : Bool} {bytes : List Byte}
    (h : s.portAccounts) : (recordReadTaken w op uncorrectable bytes s).portAccounts := by
  unfold recordReadTaken
  split
  · exact h
  · next f _ =>
    have ht : (if uncorrectable then recordError w op.page f.current s else s).portAccounts := by
      split
      · exact recordError_accounts h
      · exact h
    dsimp only
    split
    · exact fetchEndByCause_accounts ht
    · split
      · exact fetchEnd_accounts (recordError_accounts h)
      · exact fetchRecord_accounts h

theorem execRecordReadComplete_accounts (words : List (Nat × WordOutcome)) (h : s.portAccounts) :
    AccountsKept (execRecordReadComplete words s) := by
  unfold execRecordReadComplete
  split
  · next hp =>
    exact .inStore (.next (storeGrant_accounts (recordReadTaken_accounts (readWords_accounts
      (freePort_accounts h (by simp [hp]))))))
  · exact .next h

/-! ### The walks -/

theorem execReleaseWalkStep_accounts (h : s.portAccounts) : AccountsKept (execReleaseWalkStep s) := by
  unfold execReleaseWalkStep
  split
  · next r page returned retired tag stale hs =>
    split
    · split
      · split
        · exact .next (releaseAdvance_accounts (retireOwned_accounts h) (by rw [retireOwned_scanner, hs]))
        · exact .next (releaseAdvance_accounts (evaluateNotice_accounts (returnPage_accounts h)) (by simpa using hs))
      · exact .next (releaseAdvance_accounts h hs)
    · exact .next (releaseAdvance_accounts h hs)
  · exact .next h

theorem execRestartWalkBegin_accounts (h : s.portAccounts) : AccountsKept (execRestartWalkBegin s) := by
  unfold execRestartWalkBegin
  split
  · next hb =>
    obtain ⟨hd, -, hi⟩ := hb
    exact .next (restartWalkBegin_accounts h hd hi)
  · exact .next h

theorem restartExamine_accounts {page : Nat} (h : s.portAccounts) : (restartExamine page s).portAccounts := by
  unfold restartExamine
  split
  · split
    · exact retireOwned_accounts h
    · exact returnPage_accounts h
  · exact h

theorem execRestartWalkStep_accounts (h : s.portAccounts) : AccountsKept (execRestartWalkStep s) := by
  unfold execRestartWalkStep
  split
  · next page hs =>
    have hexamined := restartExamine_accounts (page := page) h
    obtain ⟨-, hscan⟩ := restartExamine_keepsPages hs
    dsimp only
    split
    · exact .next (setScanner_accounts hexamined nofun fun _ _ => ⟨page, hscan⟩)
    · exact .next (restartCompletes_accounts hexamined hscan)
  · exact .next h

/-! ### The host link's line -/

theorem raiseLinkError_accounts {cause : LinkErrorCause} {tag : Option Byte} (h : s.portAccounts) :
    (raiseLinkError cause tag s).portAccounts := raiseEvent_accounts h

theorem setLink_accounts {x : Link} (h : s.portAccounts) : (s.setLink x).portAccounts := h.frame (by simp)

theorem activateLink_accounts (h : s.portAccounts) : (activateLink s).portAccounts := by
  unfold activateLink
  dsimp only
  split
  · split
    · exact raiseEvent_accounts (setLink_accounts h)
    · exact h.frame (by simp)
  · exact h

theorem acceptFrame_accounts {q : Request} (h : s.portAccounts) : (acceptFrame q s).portAccounts := by
  unfold acceptFrame
  split
  · exact setLink_accounts h
  · exact raiseLinkError_accounts h

theorem receiveBytes_accounts {steps : Nat} {bytes : List Byte} (h : s.portAccounts) :
    (receiveBytes steps bytes s).portAccounts := by
  induction steps generalizing bytes s with
  | zero => exact h
  | succ steps ih =>
    cases bytes with
    | nil => exact h
    | cons b rest =>
      unfold receiveBytes
      split
      · exact ih (setLink_accounts h)
      · exact ih (raiseLinkError_accounts (setLink_accounts h))
      · split
        · exact ih (acceptFrame_accounts (activateLink_accounts (setLink_accounts h)))
        · exact ih (raiseLinkError_accounts (setLink_accounts h))

theorem execCharacterTaken_accounts (data : Byte) (stopBit : Bool) (h : s.portAccounts) :
    AccountsKept (execCharacterTaken data stopBit s) := by
  unfold execCharacterTaken
  split
  · exact .next (receiveBytes_accounts h)
  · exact .next h

theorem execInterByteTimeout_accounts (h : s.portAccounts) : AccountsKept (execInterByteTimeout s) := by
  unfold execInterByteTimeout
  split
  · exact .next (raiseLinkError_accounts (setLink_accounts h))
  · exact .next h

/-- A break marks the walk's request stale, and the walk goes on. -/
theorem execLinkBreak_accounts (h : s.portAccounts) : AccountsKept (execLinkBreak s) := by
  unfold execLinkBreak
  dsimp only
  split
  · have hmarked : (s.setAlloc { s.alloc with scanner := s.alloc.scanner.markStale }).portAccounts := by
      refine setScanner_accounts h (fun r page n m tag stale k => ?_) fun page k => ?_
      · cases hs : s.alloc.scanner <;> rw [hs] at k <;> cases k
        exact h.walks _ _ _ _ _ _ hs
      · cases hs : s.alloc.scanner <;> rw [hs] at k <;> cases k
        exact ⟨page, rfl⟩
    exact .next (hmarked.frame ⟨rfl, rfl, rfl, rfl, fun _ => rfl, fun _ => rfl⟩)
  · exact .next (setLink_accounts h)

theorem execTransmitFrameEnd_accounts (h : s.portAccounts) : AccountsKept (execTransmitFrameEnd s) := by
  unfold execTransmitFrameEnd
  split
  · exact .next (h.frame (by simp))
  · exact .next h

/-! ### Requests -/

theorem answer_accounts {tag : Byte} {status : Status} {body : List Byte} (h : s.portAccounts) :
    (answer tag status body s).portAccounts := makeReply_accounts h

/-- A request command keeps the accounts where its owner does. -/
theorem serve_accounts {kind tag : Byte} {body : List Byte} {owner : State → State} (h : s.portAccounts)
    (howner : ∀ t : State, t.portAccounts → (owner t).portAccounts) :
    AccountsKept (.next (serve kind tag body owner s)) := by
  refine .next ?_
  unfold serve
  split
  · next t ht =>
    obtain ⟨rest, -, -, rfl⟩ := takeRequest_some ht
    have htaken : (s.taken rest).portAccounts := setLink_accounts h
    unfold dispatch
    split
    · exact answer_accounts htaken
    · split
      · exact answer_accounts htaken
      · exact howner _ htaken
  · exact h

theorem execUnknownKind_accounts (kind tag : Byte) (body : List Byte) (h : s.portAccounts) :
    AccountsKept (execUnknownKind kind tag body s) := by
  unfold execUnknownKind
  split
  · next t _ ht =>
    obtain ⟨rest, -, -, rfl⟩ := takeRequest_some ht
    exact .next (answer_accounts (setLink_accounts h))
  · exact .next h

theorem setNotice_accounts {tag : Byte} {threshold : Nat} (h : s.portAccounts) : (setNotice tag threshold s).portAccounts := by
  unfold setNotice
  dsimp only
  split
  · exact answer_accounts (evaluateNotice_accounts (h.frame (by simp)))
  · exact answer_accounts h

theorem readRetired_accounts {tag : Byte} {offset : Nat} (h : s.portAccounts) : (readRetired tag offset s).portAccounts := by
  unfold readRetired
  dsimp only
  split <;> exact answer_accounts h

theorem withRegion_accounts {tag : Byte} {body : List Byte} {length : Nat} {f : RegionId → State → State}
    (h : s.portAccounts) (hf : ∀ r, (f r s).portAccounts) : (withRegion tag body length f s).portAccounts := by
  unfold withRegion
  split
  · exact answer_accounts h
  · exact hf _

theorem defineRegion_accounts {tag : Byte} {body : List Byte} (h : s.portAccounts) :
    (defineRegion tag body r s).portAccounts := by
  unfold defineRegion
  dsimp only
  split
  · next hs =>
    split
    · exact answer_accounts h
    · refine answer_accounts (setRegion_accounts h rfl (fun k => ?_) fun k => ?_)
      · rcases hs with hs | hs <;> simp [Region.capturing, hs] at k
      · rcases hs with hs | hs <;> simp [hs] at k
  · exact answer_accounts h

theorem notifyCapturing_accounts (h : s.portAccounts) : (notifyCapturing r s).portAccounts := by
  unfold notifyCapturing
  split
  · exact capturingNotice_accounts h
  · exact h

theorem armRegion_accounts {tag : Byte} (h : s.portAccounts) : (armRegion tag r s).portAccounts := by
  unfold armRegion
  dsimp only
  split
  · exact answer_accounts h
  · next hs =>
    split
    · exact answer_accounts h
    · split
      · exact answer_accounts h
      · next t ht =>
        have hframe := reserve_frame ht
        have hreserved : t.portAccounts := h.frame (by simp [hframe, reserve_alloc ht])
        have hidle : (t.region r).state = .idle := by simpa [hframe] using hs
        have harmed := setRegion_accounts (x := (t.region r).armedRecord) hreserved rfl (fun _ => rfl)
          fun k => by rw [hidle] at k; cases k
        exact answer_accounts (storeGrant_accounts (notifyCapturing_accounts harmed))

theorem triggerRegion_accounts {tag : Byte} (h : s.portAccounts) : (triggerRegion tag r s).portAccounts := by
  unfold triggerRegion
  dsimp only
  split
  · next hs =>
    exact answer_accounts (raiseEvent_accounts (setRegion_accounts h rfl (fun _ => rfl) fun k => by rw [hs] at k; cases k))
  · split
    · exact answer_accounts h
    · exact answer_accounts h

theorem stopRequest_accounts {tag : Byte} (h : s.portAccounts) : (stopRequest tag r s).portAccounts := by
  unfold stopRequest
  dsimp only
  split
  · next hc => exact answer_accounts (stopRegion_accounts h (Region.capturing_not_releasing hc))
  · split
    · exact answer_accounts h
    · exact answer_accounts h

/-- A RELEASE accepted leaves the region, which does not capture, RELEASING as its walk begins. -/
theorem beginRelease_accounts {tag : Byte} (h : s.portAccounts) (hc : (s.region r).capturing = false) :
    (beginRelease tag r s).portAccounts := by
  have hpurged : (s.setCache (s.cache.purgeRegion r)).portAccounts := h.frame (by simp)
  have hreleasing := setRegion_accounts (r := r) (x := { s.region r with state := .releasing }) hpurged rfl
    (fun k => absurd k (Bool.eq_false_iff.1 hc)) fun _ => rfl
  refine setScanner_accounts hreleasing ?_ nofun
  rintro i _ _ _ _ _ ⟨⟩
  simp

theorem releaseRegion_accounts {tag : Byte} (h : s.portAccounts) : (releaseRegion tag r s).portAccounts := by
  unfold releaseRegion
  dsimp only
  split
  · exact answer_accounts h
  · split
    · exact answer_accounts h
    · split
      · next hs =>
        split
        · exact answer_accounts h
        · exact beginRelease_accounts h (by rcases hs with hs | hs <;> simp [Region.capturing, hs])
      · exact answer_accounts h

theorem setEventsRegion_accounts {tag : Byte} {body : List Byte} (h : s.portAccounts) :
    (setEventsRegion tag body r s).portAccounts := by
  unfold setEventsRegion
  dsimp only
  split
  · have hmask := regionState_accounts (r := r)
      (x := { s.region r with eventMask := BitVec.ofNat 5 (field body 1 1) }) h rfl rfl
    exact answer_accounts (hmask.frame ⟨rfl, rfl, rfl, rfl, fun _ => rfl, fun _ => rfl⟩)
  · exact answer_accounts h

theorem bindAt_accounts {tag : Byte} {body : List Byte} (h : s.portAccounts) : (bindAt tag body s).portAccounts := by
  unfold bindAt
  dsimp only
  split
  · split
    · exact answer_accounts h
    · split
      · exact answer_accounts h
      · next hr => exact answer_accounts (bindPasses_accounts h hr _ _)
  · exact answer_accounts h

theorem queryPort_accounts {tag : Byte} {body : List Byte} (h : s.portAccounts) : (queryPort tag body s).portAccounts := by
  unfold queryPort
  split <;> exact answer_accounts h

theorem openAt_accounts {tag : Byte} {body : List Byte} (h : s.portAccounts) : (openAt tag body s).portAccounts := by
  unfold openAt
  dsimp only
  split
  · split
    · exact answer_accounts h
    · split
      · exact answer_accounts h
      · exact answer_accounts (setWindow_accounts h)
  · exact answer_accounts h

theorem fetchAt_accounts {tag : Byte} {body : List Byte} (h : s.portAccounts) : (fetchAt tag body s).portAccounts := by
  unfold fetchAt
  dsimp only
  split
  · exact answer_accounts h
  · split
    · exact answer_accounts h
    · exact storeGrant_accounts (fetchNext_accounts h)

theorem closeAt_accounts {tag : Byte} {body : List Byte} (h : s.portAccounts) : (closeAt tag body s).portAccounts := by
  unfold closeAt
  dsimp only
  split
  · exact answer_accounts h
  · split
    · exact answer_accounts h
    · exact answer_accounts h
    · exact setWindow_accounts h
    · exact answer_accounts (storeGrant_accounts (becomeClosed_accounts h))

theorem queryWindow_accounts {tag : Byte} {body : List Byte} (h : s.portAccounts) : (queryWindow tag body s).portAccounts := by
  unfold queryWindow
  split <;> exact answer_accounts h

/-! ### Every command -/

/-- Every command keeps the accounts of the ports. -/
theorem exec_accounts (c : Instr) (h : s.portAccounts) : AccountsKept (exec c s) := by
  cases c with
  | hardReset cause rate mode => exact execHardReset_accounts cause rate mode s
  | sweepStepComplete words => exact execSweepStepComplete_accounts words h
  | directoryClearComplete => exact execDirectoryClearComplete_accounts h
  | byteStrobe p data sor mrk => exact .next (takePortByte_accounts data sor mrk h)
  | recordWriteComplete => exact execRecordWriteComplete_accounts h
  | directoryReadComplete word => exact execDirectoryReadComplete_accounts word h
  | directoryWriteComplete word => exact execDirectoryWriteComplete_accounts word h
  | recordReadComplete words => exact execRecordReadComplete_accounts words h
  | releaseWalkStep => exact execReleaseWalkStep_accounts h
  | restartWalkBegin => exact execRestartWalkBegin_accounts h
  | restartWalkStep => exact execRestartWalkStep_accounts h
  | frameReceived data => exact .next (receiveBytes_accounts h)
  | interByteTimeout => exact execInterByteTimeout_accounts h
  | linkBreak => exact execLinkBreak_accounts h
  | transmitFrameEnd => exact execTransmitFrameEnd_accounts h
  | unknownKind kind tag body => exact execUnknownKind_accounts kind tag body h
  | identify tag body => exact serve_accounts h fun _ => answer_accounts
  | status tag body => exact serve_accounts h fun _ => answer_accounts
  | restart tag body => exact serve_accounts h fun _ => beginRestart_accounts
  | setPoolNotice tag body => exact serve_accounts h fun _ => setNotice_accounts
  | retired tag body => exact serve_accounts h fun _ => readRetired_accounts
  | define tag body => exact serve_accounts h fun _ k => withRegion_accounts k fun _ => defineRegion_accounts k
  | arm tag body => exact serve_accounts h fun _ k => withRegion_accounts k fun _ => armRegion_accounts k
  | trigger tag body => exact serve_accounts h fun _ k => withRegion_accounts k fun _ => triggerRegion_accounts k
  | stop tag body => exact serve_accounts h fun _ k => withRegion_accounts k fun _ => stopRequest_accounts k
  | release tag body => exact serve_accounts h fun _ k => withRegion_accounts k fun _ => releaseRegion_accounts k
  | query tag body => exact serve_accounts h fun _ k => withRegion_accounts k fun _ => answer_accounts k
  | setEvents tag body => exact serve_accounts h fun _ k => withRegion_accounts k fun _ => setEventsRegion_accounts k
  | bindPort tag body => exact serve_accounts h fun _ => bindAt_accounts
  | portQuery tag body => exact serve_accounts h fun _ => queryPort_accounts
  | openWindow tag body => exact serve_accounts h fun _ => openAt_accounts
  | fetch tag body => exact serve_accounts h fun _ => fetchAt_accounts
  | closeWindow tag body => exact serve_accounts h fun _ => closeAt_accounts
  | windowQuery tag body => exact serve_accounts h fun _ => queryWindow_accounts
  | characterTaken data stopBit => exact execCharacterTaken_accounts data stopBit h

end Sys2Proof.Machine

open Sys2Proof Sys2Proof.Machine

/-- Settles O58: every operation keeps what each port has staged, in flight and claimed in step with its counts, and `exec` is
made of them. -/
theorem stepsKeepPortAccounts : Obligations.StepsKeepPortAccounts := by
  intro s t h hstep
  unfold step at hstep
  split at hstep
  · obtain rfl := Host.Outcome.next.inj hstep
    exact h
  · next c rest _ => exact exec_accounts (s := { s with pending := rest }) c h t hstep
end

section
/-! SUPPORT. Record assembly and acceptance at a capture port (6.1, 6.2), byte by byte. -/

namespace Sys2Proof.Machine

variable {s : State} {p : PortId} {r : RegionId} {data : Byte} {sor mrk : Bool} {a : Assembly}

/-! ### A byte at a port (R100, R101) -/

theorem exec_byteStrobe {t : State} (h : takePortByte p data sor mrk s = t) :
    exec (.byteStrobe p data sor mrk) s = .next t := congrArg _ h

theorem takePortByte_unbound (hb : (s.port p).binding = none) :
    takePortByte p data sor mrk s = if sor then dropIdle p s else s := by
  simp only [takePortByte, hb]

section
variable (hb : (s.port p).binding = some r)
include hb

theorem takePortByte_waiting (ha : (s.port p).assembly = none) :
    takePortByte p data sor mrk s = if sor then startRecord p r data mrk s else s := by
  simp only [takePortByte, hb, ha]

theorem takePortByte_restarts (ha : (s.port p).assembly = some a) :
    takePortByte p data true mrk s = startRecord p r data mrk (shortRecord p s) := by
  simp only [takePortByte, hb, ha, if_true]

theorem takePortByte_extends (ha : (s.port p).assembly = some a) (hn : a.bytes.length + 1 < a.size) :
    takePortByte p data false mrk s =
      s.setPort p { s.port p with assembly := some { a with bytes := a.bytes ++ [data] } } := by
  simp only [takePortByte, hb, ha, Bool.false_eq_true, if_false, if_neg (Nat.not_le.2 hn)]

theorem takePortByte_completes (ha : (s.port p).assembly = some a) (hn : a.bytes.length + 1 = a.size) :
    takePortByte p data false mrk s = recordArrives p r ⟨a.bytes ++ [data], a.marker⟩ a.size
      (s.setPort p { s.port p with assembly := none }) := by
  simp only [takePortByte, hb, ha, Bool.false_eq_true, if_false, if_pos hn.ge]

end

/-- A record start with the size of the region's parameters (R99). -/
theorem startRecord_of_params {ps : Params} (hp : (s.region r).params = some ps) : startRecord p r data mrk s =
    s.setPort p { s.port p with assembly := some ⟨[data], mrk, 2 ^ ps.sizeCode⟩ } := by
  rw [startRecord, Region.recSize_of_params hp]

/-! ### The fate of a record (R102) -/

theorem dropIdle_setPort (q : Port) : dropIdle p (s.setPort p q) =
    s.setPort p (q.count fun c => { c with arrived := c.arrived + 1, dropIdle := c.dropIdle + 1 }) := by
  simp [dropIdle]

theorem dropFull_setPort (q : Port) : dropFull p (s.setPort p q) =
    let t := s.setPort p (q.count fun c => { c with arrived := c.arrived + 1, dropFull := c.dropFull + 1 })
    if q.overrunEnable then raiseEvent (.overrun p) (.overrun (reported (q.counts.dropFull + 1))) t else t := by
  simp [dropFull, Port.count]

theorem stageRecord_setPort (record : StagedRecord) (q : Port) : stageRecord p record (s.setPort p q) =
    let t := s.setPort p ({ q with staging := q.staging ++ [record] }.count fun c => { c with arrived := c.arrived + 1 })
    if q.staging = [] then storeGrant (takeHead p t) else t := by
  simp [stageRecord]

section
variable {record : StagedRecord} {size : Nat}

theorem recordArrives_idle
    (h : (s.port p).halted = true ∨ (s.region r).capturing = false ∨ size ≠ (s.region r).recSize) :
    recordArrives p r record size s = dropIdle p s := if_pos h

variable (h : ¬((s.port p).halted = true ∨ (s.region r).capturing = false ∨ size ≠ (s.region r).recSize))
include h

theorem recordArrives_full (hf : 8 ≤ (s.port p).staging.length) : recordArrives p r record size s = dropFull p s :=
  (if_neg h).trans (if_pos hf)

theorem recordArrives_staged (hf : (s.port p).staging.length < 8) :
    recordArrives p r record size s = stageRecord p record s :=
  (if_neg h).trans (if_neg (Nat.not_le.2 hf))

end

end Sys2Proof.Machine

open Sys2Proof Sys2Proof.Machine

/-- Settles O16: an unbound port takes a record start as a record dropped at once, and no other byte. -/
theorem unboundPortDropsIdle : Obligations.UnboundPortDropsIdle := by
  intro s p data mrk hb
  exact ⟨exec_byteStrobe (takePortByte_unbound hb), exec_byteStrobe (takePortByte_unbound hb)⟩

/-- Settles O17: row by row of R100, by whether a record is being assembled. -/
theorem bytesAssembleRecords : Obligations.BytesAssembleRecords := by
  intro s p data mrk r ps hb hp q started
  refine ⟨fun ha => ⟨exec_byteStrobe ?starts, exec_byteStrobe (takePortByte_waiting hb ha)⟩, fun a ha =>
    ⟨exec_byteStrobe ?restarts, fun hn => exec_byteStrobe (takePortByte_extends hb ha hn)⟩⟩
  case starts => exact (takePortByte_waiting hb ha).trans (startRecord_of_params hp)
  case restarts =>
    rw [takePortByte_restarts hb ha, startRecord_of_params (s := shortRecord p s) hp]
    simp only [shortRecord, State.setPort_port, if_true, State.setPort_setPort]
    rfl

/-- Settles O18: the last byte of a record makes it arrive at a port that assembles no more, and its fate is R102's. -/
theorem arrivedRecordsAreDroppedOrStaged : Obligations.ArrivedRecordsAreDroppedOrStaged := by
  intro s p data mrk r a hb ha hn q g record idle
  rw [exec_byteStrobe (takePortByte_completes hb ha hn)]
  have hq : (s.setPort p { q with assembly := none }).port p = { q with assembly := none } := by simp
  refine ⟨fun h => ?idle, fun h hf => ?full, fun h hf => ?staged⟩
  case idle =>
    rw [recordArrives_idle (by rw [hq]; exact h), dropIdle_setPort]
    rfl
  case full =>
    rw [recordArrives_full (by rw [hq]; exact h) (by rwa [hq]), dropFull_setPort]
    rfl
  case staged =>
    rw [recordArrives_staged (by rw [hq]; exact h) (by rwa [hq]), stageRecord_setPort]
    rfl
end

section
/-! SUPPORT. The writers (6.4, 4.2, 4.3): the issue of a record write, and what a RUNNING writer does with its head record. -/

namespace Sys2Proof.Machine

variable {s : State} {p : PortId} {r : RegionId}

/-! ### The issue of a record write (R50, R111) -/

section
variable {record : StagedRecord} {rest : List StagedRecord} (page : Nat)
  (hs : (s.port p).staging = record :: rest)
include hs

/-- The state after the issue, before the marker report. -/
theorem issueRecordWrite_staged {ps : Params} (hp : (s.region r).params = some ps) :
    issueRecordWrite p r page s =
      let k := (s.region r).committed
      let t := s.setPort p { s.port p with staging := rest, inFlight := some k }
      let u := issueWrite p ⟨r, page, k % (4096 / 2 ^ ps.sizeCode) * 2 ^ ps.sizeCode, record.bytes⟩ t
      if record.marker && (s.port p).markerEnable then markerReport r k u else u := by
  simp only [issueRecordWrite, hs, Region.offsetOf_of_params hp]

end

theorem markerReport_armed (k : Nat) (h : (s.region r).state = .armed) : markerReport r k s =
    raiseEvent (.triggered r) (.triggered k .marker)
      (s.setRegion r { s.region r with state := .triggered, trigger := some ⟨k, .marker⟩ }) := if_pos h

theorem markerReport_unarmed (k : Nat) (h : (s.region r).state ≠ .armed) : markerReport r k s = s := if_neg h

/-! ### Page claims (R73 to R77) -/

/-- The rolling count after a fresh-page claim, as one update (R74). -/
theorem countRolling_eq (r : RegionId) (l : Nat) (s : State) : countRolling r l s = s.setRegion r { s.region r with
    rollingCount := if (s.region r).anchor ≤ l then (s.region r).rollingCount + 1 else (s.region r).rollingCount } := by
  unfold countRolling
  dsimp only
  split
  · rfl
  · exact (State.setRegion_self s r).symm

/-- A fresh-page claim (R74): the count, the directory write, the write-update, and the claim at stage DIRECTORY_WRITE. -/
theorem freshPage_eq (p : PortId) (r : RegionId) (l page : Nat) (s : State) : freshPage p r l page s =
    (writeUpdate r l page (issueDirectory (.write r l page p) (countRolling r l s))).setPort p
      { s.port p with claim := some ⟨l, .directoryWrite, none, some page⟩ } := by
  simp only [freshPage, writeUpdate_frame, issueDirectory_frame, countRolling_frame]

section
variable {l : Nat}

theorem pageClaim_fresh {page : Nat} {t : State}
    (h : l < (s.region r).anchor ∨ ((s.region r).wrapLength = none ∧
      (s.region r).rollingCount < (s.region r).quota - (s.region r).anchor))
    (hc : claimPage r s = some (page, t)) : pageClaim p r l s = freshPage p r l page t := by
  simp only [pageClaim, if_pos h, hc]

theorem pageClaim_recycles
    (h : ¬(l < (s.region r).anchor ∨ ((s.region r).wrapLength = none ∧
      (s.region r).rollingCount < (s.region r).quota - (s.region r).anchor)) ∨ claimPage r s = none) :
    pageClaim p r l s = wrapThenRecycle p r l s := by
  unfold pageClaim
  dsimp only
  split
  · next hf =>
    rw [h.resolve_left (not_not_intro hf)]
  · rfl

end

/-- The region with the wrap length W, which takes the value n where no wrap has happened (R76). -/
def Region.wrapped (g : Region) : Region := { g with wrapLength := some (g.wrapLength.getD g.rollingCount) }

/-- The recycle of logical page `l`: the page that lies W before it, and the slot that both share (R72, R77). -/
def Region.recycleOf (g : Region) (l : Nat) : Recycle :=
  let w := g.wrapLength.getD g.rollingCount
  ⟨l - w, g.anchor + (l - g.anchor) % w⟩

theorem lookupSlot_port {slot : Nat} {who : Requester} {answer : Option Nat} {t : State}
    (h : lookupSlot r slot who s = (answer, t)) (i : PortId) : t.port i = s.port i := by
  obtain rfl := congrArg Prod.snd h
  simp

section
variable {l : Nat} {v : State}

/-- A recycle's lookup that hits goes straight to the pin check (R77). -/
theorem recycleLookup_hit {page : Nat}
    (h : lookupSlot r ((s.region r).recycleOf l).slot (.writer p) s = (some page, v)) :
    recycleLookup p r l s = recycleStep p r l ((s.region r).recycleOf l) page v := by
  rw [Region.recycleOf] at h ⊢
  simp only [recycleLookup, h]

/-- One that misses leaves the claim waiting at stage DIRECTORY_READ. -/
theorem recycleLookup_miss (h : lookupSlot r ((s.region r).recycleOf l).slot (.writer p) s = (none, v)) :
    recycleLookup p r l s =
      v.setPort p { s.port p with claim := some ⟨l, .directoryRead, some ((s.region r).recycleOf l), none⟩ } := by
  have hport := lookupSlot_port h p
  rw [Region.recycleOf] at h ⊢
  simp only [recycleLookup, h, hport]

/-- A wrap leaves the recycle the same: W stands, or takes the value n that the recycle reads in its place. -/
theorem wrapThenRecycle_eq (p : PortId) (r : RegionId) (l : Nat) (s : State) :
    wrapThenRecycle p r l s = recycleLookup p r l (s.setRegion r (s.region r).wrapped) ∧
      ((s.setRegion r (s.region r).wrapped).region r).recycleOf l = (s.region r).recycleOf l := by
  refine ⟨rfl, ?_⟩
  rw [State.setRegion_region, if_pos rfl]
  rfl

end

/-! ### The head record (R110) -/

section
variable (hb : (s.port p).binding = some r)
include hb

theorem takeHead_unready (h : ¬((s.port p).writer = .running ∧ (s.port p).staging ≠ [] ∧ (s.port p).inFlight = none ∧
    (s.port p).claim = none)) : takeHead p s = s := by
  simp only [takeHead, hb, if_neg h]

variable (h : (s.port p).writer = .running ∧ (s.port p).staging ≠ [] ∧ (s.port p).inFlight = none ∧
  (s.port p).claim = none)
include h

theorem takeHead_within {f : FillPage} (hk : (s.region r).committed % (s.region r).rpp ≠ 0)
    (hf : (s.port p).fillPage = some f) : takeHead p s = issueRecordWrite p r f.page s := by
  simp only [takeHead, hb, if_pos h, if_neg hk, hf]

theorem takeHead_first (hk : (s.region r).committed % (s.region r).rpp = 0) :
    takeHead p s = pageClaim p r ((s.region r).committed / (s.region r).rpp) s := by
  simp only [takeHead, hb, if_pos h, if_pos hk]

end

end Sys2Proof.Machine

open Sys2Proof Sys2Proof.Machine

/-- Settles O19: the head record goes out at its place, and the marker report acts on an ARMED region alone. -/
theorem recordWriteIsIssued : Obligations.RecordWriteIsIssued := by
  intro s p r page record rest ps hs hp k size t u marker
  have hissued : issueRecordWrite p r page s = if record.marker && (s.port p).markerEnable then markerReport r k u else u :=
    issueRecordWrite_staged page hs hp
  have hregion : u.region r = s.region r := rfl
  rw [hissued]
  refine ⟨fun ⟨hm, he, ha⟩ => ?marker, fun hm => ?plain⟩
  case marker =>
    rw [if_pos (by simp [hm, he]), markerReport_armed k (by rwa [hregion]), hregion]
  case plain =>
    split
    · next hreport =>
      rw [Bool.and_eq_true] at hreport
      exact markerReport_unarmed k fun ha => hm ⟨hreport.1, hreport.2, ha⟩
    · rfl

/-- Settles O20: the writer by whether it is ready and where its record lies in the logical page; a first record by whether
the allocator hands out a fresh page. -/
theorem writerTakesTheHeadRecord : Obligations.WriterTakesTheHeadRecord := by
  intro s p r hb q g l ready fresh
  refine ⟨takeHead_unready hb, fun hready hk f hf => takeHead_within hb hready hk hf, fun hready hk =>
    ⟨fun hfresh page t hc => ?fresh, fun hrecycles => ?recycles⟩⟩
  case fresh =>
    have hframe := claimPage_frame hc
    have hregion : t.region r = g := by simp [hframe, g]
    have hport : t.port p = q := by simp [hframe, q]
    rw [takeHead_first hb hready hk, pageClaim_fresh hfresh hc, freshPage_eq, countRolling_eq, hregion, hport]
    rfl
  case recycles =>
    obtain ⟨hwrap, hrecycle⟩ := wrapThenRecycle_eq p r l s
    have htakes : takeHead p s = recycleLookup p r l (s.setRegion r g.wrapped) :=
      (takeHead_first hb hready hk).trans ((pageClaim_recycles hrecycles).trans hwrap)
    rw [htakes]
    refine ⟨fun page v hv => ?_, fun v hv => ?_⟩
    · rw [recycleLookup_hit (by rw [hrecycle]; exact hv), hrecycle]
      rfl
    · rw [recycleLookup_miss (by rw [hrecycle]; exact hv), hrecycle]
      rfl
end

section
/-! SUPPORT. The answers of the slot cache to a writer and to a fetch (R113, R117, R128, R132). -/

namespace Sys2Proof.Machine

variable {s : State} {p : PortId} {r : RegionId} {w : WindowId} {f : Fetch}

theorem writerAnswer_recycles {l page : Nat} {rc : Recycle} {x : Option Nat} (hw : (s.port p).writer = .running)
    (hc : (s.port p).claim = some ⟨l, .directoryRead, some rc, x⟩) :
    writerAnswer p r (some page) s = recycleStep p r l rc page s := by
  simp only [writerAnswer, hw, hc]

theorem writerAnswer_outstanding {page : Option Nat} (hw : (s.port p).writer = .idle) :
    writerAnswer p r page s = s.setPort p { s.port p with claim := none } := by
  simp only [writerAnswer, hw]

theorem fetchAnswer_reads {page : Nat} (hf : (s.window w).fetch = some f) (hc : f.endCause = none) :
    fetchAnswer w (some page) s = fetchRead w f page s := by
  simp only [fetchAnswer, hf, hc]

theorem fetchAnswer_ends {page : Option Nat} {cause : EndCause} (hf : (s.window w).fetch = some f)
    (hc : f.endCause = some cause) : fetchAnswer w page s = fetchEndByCause w f cause s := by
  simp only [fetchAnswer, hf, hc]

end Sys2Proof.Machine

open Sys2Proof Sys2Proof.Machine

/-- Settles O26, requester by requester. -/
theorem lookupAnswersAreTaken : Obligations.LookupAnswersAreTaken := by
  intro s r page
  refine ⟨fun p l rc x hw hc => writerAnswer_recycles hw hc, fun p answer hw => writerAnswer_outstanding hw,
    fun w f ps hf hc hp => ?_, fun w f cause answer hf hc => fetchAnswer_ends hf hc⟩
  exact (fetchAnswer_reads hf hc).trans (fetchRead_of_params hp f page)
end

section
/-! SUPPORT. BIND (R106, R107): its tests, and the binding it moves. -/

namespace Sys2Proof.Machine

variable {s : State} {tag b bound enables : Byte} {rest : List Request} {p : PortId} {target : Option RegionId}

/-- A BIND reaches the capture port. -/
theorem exec_bindPort_requested (h : Requested s 0x20 tag [b, bound, enables] rest) :
    exec (.bindPort tag [b, bound, enables]) s = .next (bindAt tag [b, bound, enables] (s.taken rest)) :=
  congrArg _ (serve_requested h rfl)

theorem bindRequest_fields (b bound enables : Byte) : field [b, bound, enables] 0 1 = b.toNat ∧
    field [b, bound, enables] 1 1 = bound.toNat ∧ field [b, bound, enables] 2 1 = enables.toNat :=
  ⟨field_head b _, field_byte [b] _ bound, field_byte [b, bound] _ enables⟩

/-- The byte that names a BIND's target: 0xFF for none, or a region (R182). -/
theorem targetArg_of_named (h : target = none ∧ bound = 0xFF ∨ ∃ r, target = some r ∧ bound.toNat = r.val) :
    targetArg bound.toNat = some target ∧ optionalNumber target = bound := by
  rcases h with ⟨rfl, rfl⟩ | ⟨r, rfl, hr⟩
  · exact ⟨rfl, rfl⟩
  · have hne : r.val ≠ 0xFF := by omega
    rw [hr, targetArg, if_neg hne, regionArg_val]
    exact ⟨rfl, numberByte_of_toNat hr⟩

theorem targetArg_outOfRange (h : 16 ≤ bound.toNat) (hne : bound ≠ 0xFF) : targetArg bound.toNat = none := by
  have hb : bound.toNat ≠ 0xFF := fun e => hne (BitVec.eq_of_toNat_eq e)
  rw [targetArg, if_neg hb, regionArg_none h]
  rfl

/-! ### The tests of R106, in their order -/

theorem bindRefusal_badState (h : presentCapturing p s = true ∨ targetUnready target s = true) :
    bindRefusal p target s = some .badState := by
  unfold bindRefusal
  split
  · rfl
  · next hp => exact if_pos (h.resolve_left hp)

section
variable (h : ¬(presentCapturing p s = true ∨ targetUnready target s = true))
include h

theorem bindRefusal_busy (hw : targetTaken p target s = true ∨ (s.port p).working = true) :
    bindRefusal p target s = some .busy := by
  rw [not_or] at h
  rw [bindRefusal, if_neg h.1, if_neg h.2]
  split
  · rfl
  · next ht => exact if_pos (hw.resolve_left ht)

theorem bindRefusal_passes (hw : ¬(targetTaken p target s = true ∨ (s.port p).working = true)) :
    bindRefusal p target s = none := by
  rw [not_or] at h hw
  rw [bindRefusal, if_neg h.1, if_neg h.2, if_neg hw.1, if_neg hw.2]

end

/-! ### The answers -/

theorem bindAt_badArg (h : 16 ≤ bound.toNat ∧ bound ≠ 0xFF ∨ 4 ≤ enables.toNat) :
    bindAt tag [b, bound, enables] s = makeReply tag false .badArg [b, 0, 0] s := by
  obtain ⟨-, hbound, henables⟩ := bindRequest_fields b bound enables
  unfold bindAt
  dsimp only
  split
  · next ht =>
    rw [hbound] at ht
    refine if_pos (henables ▸ h.resolve_left fun hr => ?_)
    rw [targetArg_outOfRange hr.1 hr.2] at ht
    cases ht
  · rfl

section
variable (hb : b.toNat = p.val) (ht : targetArg bound.toNat = some target) (he : enables.toNat < 4)
include hb ht he

theorem bindAt_refused {status : Status} (hr : bindRefusal p target s = some status) :
    bindAt tag [b, bound, enables] s = makeReply tag false status [b, 0, 0] s := by
  obtain ⟨hport, hbound, henables⟩ := bindRequest_fields b bound enables
  simp only [bindAt, hport, hbound, henables, hb, portArg_val, ht, if_neg (Nat.not_le.2 he), hr]
  rfl

theorem bindAt_passes (hr : bindRefusal p target s = none) : bindAt tag [b, bound, enables] s =
    makeReply tag false .ok [b, optionalNumber target, enables] ((moveBinding p target s).setPort p
      ((s.port p).bound target (enables.getLsbD 0) (enables.getLsbD 1))) := by
  obtain ⟨hport, hbound, henables⟩ := bindRequest_fields b bound enables
  have hmoved : (moveBinding p target s).port p = s.port p := by
    rw [moveBinding_eq]
    rfl
  simp only [bindAt, hport, hbound, henables, hb, portArg_val, ht, if_neg (Nat.not_le.2 he), hr, hmoved, answer,
    numberByte_of_toNat hb, numberByte_toNat]
  rfl

end

end Sys2Proof.Machine

open Sys2Proof Sys2Proof.Machine

/-- Settles O50: the ranges first, then the tests of R106 in their order; a BIND that passes moves the binding. -/
theorem bindMovesThePort : Obligations.BindMovesThePort := by
  intro s tag b bound enables rest p hb h q refused
  rw [exec_bindPort_requested h]
  refine ⟨fun hr => congrArg _ (bindAt_badArg hr), fun target hnamed he => ?_⟩
  obtain ⟨htarget, hnumber⟩ := targetArg_of_named hnamed
  rw [← presentCapturing_iff, ← targetUnready_iff, ← targetTaken_iff, ← Port.working_iff]
  dsimp only
  refine ⟨fun hbad => ?badState, fun hready hbusy => ?busy, fun hready hfree => ?passes⟩
  case badState => exact congrArg _ (bindAt_refused hb htarget he (bindRefusal_badState hbad))
  case busy => exact congrArg _ (bindAt_refused hb htarget he (bindRefusal_busy hready hbusy))
  case passes =>
    have hregion := moveBinding_region p target (s.taken rest)
    have hpasses : bindRefusal p target (s.taken rest) = none := bindRefusal_passes hready hfree
    refine ⟨(moveBinding p target (s.taken rest)).regions, fun r hr => (hregion r).trans (if_pos hr),
      fun r hr ho => (hregion r).trans ((if_neg hr).trans (if_pos ho)),
      fun r hr ho => (hregion r).trans ((if_neg hr).trans (if_neg ho)), ?_⟩
    rw [bindAt_passes hb htarget he hpasses, hnumber, moveBinding_eq]
    rfl
end

section
/-! SUPPORT. The pin check (7.4, R137 to R139): which pins cover a logical page, the breaking of several, and what the writer
does with each answer (R78, R79, R113, R114). -/

namespace Sys2Proof.Machine

/-! ### Covering pins (R137) -/

/-- The test of R137, on a window whose range is not empty: the range and the page have a seq in common. -/
theorem Window.covers_iff {x : Window} {r : RegionId} {rpp l : Nat} (h : x.first ≤ x.last) :
    x.covers r rpp l = true ↔ x.state ≠ .closed ∧ x.region = r ∧ x.pin = .standing ∧
      ∃ k, x.first ≤ k ∧ k ≤ x.last ∧ l * rpp ≤ k ∧ k < (l + 1) * rpp := by
  have hmeet : (∃ k, x.first ≤ k ∧ k ≤ x.last ∧ l * rpp ≤ k ∧ k < (l + 1) * rpp) ↔
      x.first < (l + 1) * rpp ∧ l * rpp ≤ x.last := by
    have hempty : rpp = 0 → l * rpp = 0 := fun hr => by rw [hr, Nat.mul_zero]
    rw [Nat.succ_mul]
    exact ⟨fun ⟨k, _⟩ => by omega, fun _ => ⟨max x.first (l * rpp), by omega⟩⟩
  simp [Window.covers, hmeet, and_assoc]

section
variable {s : State} {r : RegionId} {l : Nat}

theorem mem_coveringWindows {w : WindowId} :
    w ∈ coveringWindows r l s ↔ (s.window w).covers r (s.region r).rpp l = true := by
  simp [coveringWindows]

theorem coveringWindows_ascending (r : RegionId) (l : Nat) (s : State) : (coveringWindows r l s).Pairwise (· < ·) :=
  (List.pairwise_lt_finRange 4).filter _

theorem coveringWindows_nodup (r : RegionId) (l : Nat) (s : State) : (coveringWindows r l s).Nodup :=
  (List.nodup_finRange 4).filter _

theorem coveringWindows_eq_nil (h : ∀ w, w ∉ coveringWindows r l s) : coveringWindows r l s = [] :=
  List.eq_nil_iff_forall_not_mem.2 h

/-- The state with every pin that covers logical page `l` broken, and each loss raised (R138, R139). -/
def pinsBroken (r : RegionId) (l : Nat) (s : State) : State := (coveringWindows r l s).foldl (breakPin r l) s

/-! ### The answers of the pin check (R138) -/

theorem pinCheck_stopped (hc : (s.region r).capturing = false) : pinCheck r l s = (.stopped, s) := by
  simp [pinCheck, hc]

section
variable (hc : (s.region r).capturing = true)
include hc

theorem pinCheck_uncovered (hw : coveringWindows r l s = []) : pinCheck r l s = (.proceed, advanceOldest r l s) := by
  simp [pinCheck, hc, hw]

theorem pinCheck_holds (hw : coveringWindows r l s ≠ []) (hp : (s.region r).pinPolicy = .holdWriter) :
    pinCheck r l s = (.hold (coveringWindows r l s), s) := by
  obtain ⟨w, ws, hws⟩ := List.exists_cons_of_ne_nil hw
  simp [pinCheck, hc, hws, hp]

theorem pinCheck_breaks (hw : coveringWindows r l s ≠ []) (hp : (s.region r).pinPolicy = .breakPin) :
    pinCheck r l s = (.proceed, advanceOldest r l (pinsBroken r l s)) := by
  obtain ⟨w, ws, hws⟩ := List.exists_cons_of_ne_nil hw
  simp [pinCheck, pinsBroken, hc, hws, hp]

end

/-! ### What the writer does with the answer (R113, R114) -/

section
variable {p : PortId} {page : Nat} {rc : Recycle} {t : State}

theorem recycleStep_stopped (h : pinCheck r rc.oldPage s = (.stopped, t)) : recycleStep p r l rc page s = t := by
  simp only [recycleStep, h]

theorem recycleStep_holds {windows : List WindowId} (h : pinCheck r rc.oldPage s = (.hold windows, t)) :
    recycleStep p r l rc page s = enterStarved p r l rc page windows t := by
  simp only [recycleStep, h]

theorem recycleStep_proceeds (h : pinCheck r rc.oldPage s = (.proceed, t)) :
    recycleStep p r l rc page s = claimEnds p r l page t := by
  simp only [recycleStep, h]

end

end

/-! ### Several pins broken (R139) -/

/-- One pin broken and its PIN_BROKEN raised, both with the window and the region's rpp as they stand in `s`. -/
def breakPinAsIn (s : State) (r : RegionId) (l : Nat) (u : State) (w : WindowId) : State :=
  raiseEvent (.pinBroken w) (.pinBroken r (max (s.window w).first (l * (s.region r).rpp)))
    (u.setWindow w { s.window w with pin := .broken })

section
variable {s : State} {r : RegionId} {l : Nat}

theorem breakPin_eq {u : State} {w : WindowId} (hr : u.region r = s.region r) (hw : u.window w = s.window w) :
    breakPin r l u w = breakPinAsIn s r l u w := by
  rw [breakPin, breakPinAsIn, hr, hw]

theorem breakPin_window (u : State) (w v : WindowId) :
    (breakPin r l u w).window v = if v = w then { u.window w with pin := .broken } else u.window v := by
  simp [breakPin]

/-- Breaking the pins of distinct windows reads each of them as it stood before the first. -/
theorem breakPins_eq {windows : List WindowId} (hd : windows.Nodup) {u : State} (hr : u.region r = s.region r)
    (hw : ∀ w ∈ windows, u.window w = s.window w) :
    windows.foldl (breakPin r l) u = windows.foldl (breakPinAsIn s r l) u := by
  induction windows generalizing u with
  | nil => rfl
  | cons w ws ih =>
    obtain ⟨hnew, hrest⟩ := List.nodup_cons.1 hd
    have hhead : breakPin r l u w = breakPinAsIn s r l u w := breakPin_eq hr (hw w List.mem_cons_self)
    rw [List.foldl_cons, List.foldl_cons, ← hhead]
    refine ih hrest (by simp [hr]) fun v hv => ?_
    have hne : v ≠ w := fun e => hnew (e ▸ hv)
    rw [breakPin_window, if_neg hne, hw v (List.mem_cons_of_mem w hv)]

/-- Each pin of the list is broken, and every other window stays. -/
theorem breakPins_window (windows : List WindowId) (u : State) (v : WindowId) :
    (windows.foldl (breakPin r l) u).window v =
      if v ∈ windows then { u.window v with pin := .broken } else u.window v := by
  induction windows generalizing u with
  | nil => rfl
  | cons w ws ih =>
    rw [List.foldl_cons, ih, breakPin_window]
    by_cases hv : v = w
    · subst hv
      simp
    · simp [hv]

/-- A further broken pin leaves the PIN_BROKEN of other windows reported. -/
theorem breakPins_keeps {windows : List WindowId} {v : WindowId} {payload : Payload} (hv : v ∉ windows) {u : State}
    (h : u.reports (.pinBroken v) payload) : (windows.foldl (breakPin r l) u).reports (.pinBroken v) payload := by
  induction windows generalizing u with
  | nil => exact h
  | cons w ws ih =>
    obtain ⟨hne, hrest⟩ := List.ne_and_not_mem_of_not_mem_cons hv
    exact ih hrest (raiseEvent_keeps (fun e => hne (EventKey.pinBroken.inj e).symm) h)

/-- PIN_BROKEN has no mask bit (R66), so each broken pin is reported, with the first lost seq. -/
theorem breakPins_reports {windows : List WindowId} (hd : windows.Nodup) {v : WindowId} (hv : v ∈ windows) (u : State) :
    (windows.foldl (breakPin r l) u).reports (.pinBroken v)
      (.pinBroken r (max (u.window v).first (l * (u.region r).rpp))) := by
  induction windows generalizing u with
  | nil => cases hv
  | cons w ws ih =>
    obtain ⟨hnew, hrest⟩ := List.nodup_cons.1 hd
    rcases List.mem_cons.1 hv with rfl | hv
    · exact breakPins_keeps hnew (raiseEvent_reports rfl)
    · simpa using ih hrest hv (breakPin r l u w)

end

/-! ### All covering pins broken -/

section
variable (r : RegionId) (l : Nat) (s : State)

theorem pinsBroken_inOrder : pinsBroken r l s = (coveringWindows r l s).foldl (breakPinAsIn s r l) s :=
  breakPins_eq (coveringWindows_nodup r l s) rfl fun _ _ => rfl

theorem pinsBroken_window (w : WindowId) : (pinsBroken r l s).window w =
    if w ∈ coveringWindows r l s then { s.window w with pin := .broken } else s.window w :=
  breakPins_window _ s w

theorem pinsBroken_reports {w : WindowId} (hw : w ∈ coveringWindows r l s) : (pinsBroken r l s).reports (.pinBroken w)
    (.pinBroken r (max (s.window w).first (l * (s.region r).rpp))) :=
  breakPins_reports (coveringWindows_nodup r l s) hw s

/-- Only the windows, and what reports the losses, change. -/
@[simp] theorem pinsBroken_blocks :
    (pinsBroken r l s).device = s.device ∧ (pinsBroken r l s).restart = s.restart ∧
    (pinsBroken r l s).store = s.store ∧ (pinsBroken r l s).alloc = s.alloc ∧ (pinsBroken r l s).cache = s.cache ∧
    (pinsBroken r l s).ports = s.ports ∧ (∀ q, (pinsBroken r l s).region q = s.region q) ∧
    (∀ p, (pinsBroken r l s).port p = s.port p) := by
  simp [pinsBroken]

end

end Sys2Proof.Machine

open Sys2Proof Sys2Proof.Machine

/-- Settles O21: the answer by the region's state, the covering windows and the policy; the covering windows are those of
`coveringWindows`, and several pins break in its order. -/
theorem pinCheckAnswers : Obligations.PinCheckAnswers := by
  intro s p r l rc page hranges g covers advanced reuse
  have hmem (w : WindowId) : w ∈ coveringWindows r rc.oldPage s ↔ covers w :=
    mem_coveringWindows.trans (Window.covers_iff (hranges w))
  have hcovered : (∃ w, covers w) → coveringWindows r rc.oldPage s ≠ [] :=
    fun ⟨w, hw⟩ => List.ne_nil_of_mem ((hmem w).2 hw)
  have hreuse {t : State} (hport : t.port p = s.port p) : claimEnds p r l page t = reuse t := by
    rw [claimEnds, hport]
  refine ⟨fun hstopped => recycleStep_stopped (pinCheck_stopped hstopped), fun hc hnone => ?uncovered,
    fun hc hsome hpolicy => ?holds, fun hc hsome hpolicy => ?breaks⟩
  case uncovered =>
    have hnil : coveringWindows r rc.oldPage s = [] := coveringWindows_eq_nil fun w hw => hnone w ((hmem w).1 hw)
    exact (recycleStep_proceeds (pinCheck_uncovered hc hnil)).trans (hreuse rfl)
  case holds =>
    exact ⟨_, coveringWindows_ascending r rc.oldPage s, hmem,
      recycleStep_holds (pinCheck_holds hc (hcovered hsome) hpolicy)⟩
  case breaks =>
    have hwindow := pinsBroken_window r rc.oldPage s
    have hadvance : advanceOldest r rc.oldPage (pinsBroken r rc.oldPage s) =
        (pinsBroken r rc.oldPage s).setRegion r advanced := by
      simp only [advanceOldest, pinsBroken_blocks, advanced, g]
    have hproceeds := recycleStep_proceeds (p := p) (l := l) (page := page)
      (pinCheck_breaks hc (hcovered hsome) hpolicy)
    rw [hadvance] at hproceeds
    refine ⟨(pinsBroken r rc.oldPage s).setRegion r advanced, hproceeds.trans (hreuse (by simp)),
      ⟨_, coveringWindows_nodup r rc.oldPage s, hmem, congrArg (·.setRegion r advanced) (pinsBroken_inOrder r _ s)⟩,
      by simp, by simp, by simp, fun q hq => by simp [hq], fun w hw => ⟨?broken, ?reported⟩, fun w hw => ?kept,
      by simp, by simp, by simp, by simp⟩
    case broken => exact (hwindow w).trans (if_pos ((hmem w).2 hw))
    case reported => exact pinsBroken_reports r rc.oldPage s ((hmem w).2 hw)
    case kept => exact (hwindow w).trans (if_neg (mt (hmem w).1 hw))
end

section
/-! SUPPORT. The window requests OPEN, FETCH and CLOSE (chapter 7), each by the first of its tests that decides, and the end of a
fetch (R131, R135). -/

namespace Sys2Proof.Machine

/-! ### The fields of an OPEN (11.3) -/

/-- The body of an OPEN request (11.3). -/
def openRequest (b c pin : Byte) (first last : Nat) : List Byte := [b, c] ++ beBytes 6 first ++ beBytes 6 last ++ [pin]

section
variable {b c pin tag : Byte} {first last : Nat} {rest : List Request} {s : State} {r : RegionId} {w : WindowId}

/-- An OPEN reaches the fetch engine. -/
theorem exec_openWindow_requested (h : Requested s 0x30 tag (openRequest b c pin first last) rest) :
    exec (.openWindow tag (openRequest b c pin first last)) s =
      .next (openAt tag (openRequest b c pin first last) (s.taken rest)) :=
  congrArg _ (serve_requested h (by simp [openRequest, requestBodyLength]))

theorem pinFlag_iff : pin.toNat = 1 ↔ pin = 1 := BitVec.toNat_inj (y := 1#8)

/-- The pin flag of an OPEN, in range, is the code of the pin that the window takes (R123, R182). -/
theorem pinFlag_code (hp : pin.toNat < 2) : (if pin = 1 then Pin.standing else .none).code = pin := by
  split
  · next h => exact h.symm
  · next h =>
    have hzero : pin.toNat = 0 := by have := mt pinFlag_iff.1 h; omega
    exact (BitVec.eq_of_toNat_eq (y := 0#8) hzero).symm

section
variable (b c pin) (hf : first < 281474976710656) (hl : last < 281474976710656)
include hf hl

/-- What each field of an OPEN request reads as. -/
theorem openRequest_fields : field (openRequest b c pin first last) 0 1 = b.toNat ∧
    field (openRequest b c pin first last) 1 1 = c.toNat ∧ field (openRequest b c pin first last) 2 6 = first ∧
    field (openRequest b c pin first last) 8 6 = last ∧ field (openRequest b c pin first last) 14 1 = pin.toNat := by
  simp only [openRequest, List.append_assoc]
  refine ⟨field_head b _, field_byte [b] _ c, field_beBytes [b, c] _ 6 first hf, ?_, ?_⟩
  · simpa using field_beBytes ([b, c] ++ beBytes 6 first) [pin] 6 last hl
  · simpa using field_byte ([b, c] ++ beBytes 6 first ++ beBytes 6 last) [] pin

end

section
variable (hf : first < 281474976710656) (hl : last < 281474976710656)
include hf hl

/-- A refusal gives the numbers as received, and the counts of a region in range (R184). -/
theorem openRefusedBody_inRange (hc : c.toNat = r.val) : openRefusedBody (openRequest b c pin first last) s =
    openBody b c first last 0 .none (s.region r).committed (s.region r).oldest := by
  obtain ⟨-, hregion, hfirst, hlast, -⟩ := openRequest_fields b c pin hf hl
  simp only [openRefusedBody, hregion, hfirst, hlast, hc, regionArg_val]
  rfl

theorem openRefusedBody_outOfRange (hc : 16 ≤ c.toNat) :
    openRefusedBody (openRequest b c pin first last) s = openBody b c first last 0 .none 0 0 := by
  obtain ⟨-, hregion, hfirst, hlast, -⟩ := openRequest_fields b c pin hf hl
  simp only [openRefusedBody, hregion, hfirst, hlast, regionArg_none hc]
  rfl

/-! ### OPEN at the fetch engine (R123, R124) -/

/-- The tests of the ranges come first, with that of the pin flag (R182). -/
theorem openAt_badArg (h : 16 ≤ c.toNat ∨ 4 ≤ b.toNat ∨ 2 ≤ pin.toNat) : openAt tag (openRequest b c pin first last) s =
    makeReply tag false .badArg (openRefusedBody (openRequest b c pin first last) s) s := by
  obtain ⟨hwindow, hregion, -, -, hpin⟩ := openRequest_fields b c pin hf hl
  unfold openAt
  split
  · next w r hw hr =>
    rw [hwindow] at hw
    rw [hregion] at hr
    rcases h with hc | hb | hp
    · exact absurd ((regionArg_none hc).symm.trans hr) nofun
    · exact absurd ((windowArg_none hb).symm.trans hw) nofun
    · exact if_pos (hpin ▸ hp)
  · rfl

section
variable (hb : b.toNat = w.val) (hc : c.toNat = r.val) (hp : pin.toNat < 2)
include hb hc hp

theorem openAt_refused {status : Status} (h : openRefusal w r ⟨first, last, pin = 1⟩ s = some status) :
    openAt tag (openRequest b c pin first last) s = makeReply tag false status
      (openBody b c first last 0 .none (s.region r).committed (s.region r).oldest) s := by
  obtain ⟨hwindow, hregion, hfirst, hlast, hpin⟩ := openRequest_fields b c pin hf hl
  rw [← openRefusedBody_inRange hf hl hc]
  simp only [openAt, hwindow, hregion, hfirst, hlast, hpin, pinFlag_iff, hb, hc, windowArg_val, regionArg_val,
    if_neg (Nat.not_le.2 hp), h]
  rfl

theorem openAt_passes (h : openRefusal w r ⟨first, last, pin = 1⟩ s = none) :
    openAt tag (openRequest b c pin first last) s = makeReply tag false .ok
      (openBody b c first last first (if pin = 1 then .standing else .none) (s.region r).committed (s.region r).oldest)
      (s.setWindow w (openedWindow r ⟨first, last, pin = 1⟩)) := by
  obtain ⟨hwindow, hregion, hfirst, hlast, hpin⟩ := openRequest_fields b c pin hf hl
  simp only [openAt, hwindow, hregion, hfirst, hlast, hpin, pinFlag_iff, hb, hc, windowArg_val, regionArg_val,
    if_neg (Nat.not_le.2 hp), h, numberByte_of_toNat hb, numberByte_of_toNat hc, openedWindow, decide_eq_true_eq, answer]

end

end

end

/-! ### The tests of an OPEN, in their order (R123, R124) -/

/-- A range holds a record that is lost when its first seq past the anchor area is below the oldest rolling seq (R81, R124). -/
theorem Region.lostInRange_iff {g : Region} {first last : Nat} : g.lostInRange first last = true ↔
    ∃ k, first ≤ k ∧ k ≤ last ∧ k < g.committed ∧ g.anchor * g.rpp ≤ k ∧ k < g.oldest := by
  rw [Region.lostInRange, decide_eq_true_eq]
  exact ⟨fun _ => ⟨max first (g.anchor * g.rpp), by omega⟩, fun ⟨k, _⟩ => by omega⟩

section
variable {w : WindowId} {r : RegionId} {a : OpenArgs} {s : State}

theorem openRefusal_busy (h : (s.window w).state ≠ .closed) : openRefusal w r a s = some .busy := if_pos h

section
variable (hw : (s.window w).state = .closed)
include hw

theorem openRefusal_faulted (h : (s.region r).state = .faulted) : openRefusal w r a s = some .faulted :=
  (if_neg (not_not.2 hw)).trans (if_pos h)

theorem openRefusal_badState (hf : (s.region r).state ≠ .faulted)
    (h : ¬((s.region r).capturing = true ∨ (s.region r).state = .stopped)) : openRefusal w r a s = some .badState := by
  rw [not_or, Bool.not_eq_true] at h
  rw [openRefusal, if_neg (not_not.2 hw), if_neg hf, if_pos h]

/-- A CLOSED window and a region that serves it leave the tests of the range (R123, R124). -/
theorem openRefusal_serves (h : (s.region r).capturing = true ∨ (s.region r).state = .stopped) : openRefusal w r a s =
    if a.last < a.first then some .badArg
    else if a.pinned ∧ (s.region r).lostInRange a.first a.last then some .expired
    else if a.pinned ∧ (s.region r).committed ≤ a.last then some .notYet
    else none := by
  have hfaulted : (s.region r).state ≠ .faulted := fun hf => by simp [Region.capturing, hf] at h
  have hserves : ¬((s.region r).capturing = false ∧ (s.region r).state ≠ .stopped) := by
    rw [not_and_or, not_not, Bool.not_eq_false]
    exact h
  rw [openRefusal, if_neg (not_not.2 hw), if_neg hfaulted, if_neg hserves]

end

end

/-! ### FETCH (R126, R127) -/

section
variable {b tag : Byte} {count : Nat} {rest : List Request} {s : State} {w : WindowId}

/-- A FETCH reaches the fetch engine. -/
theorem exec_fetch_requested (h : Requested s 0x31 tag ([b] ++ beBytes 2 count) rest) :
    exec (.fetch tag ([b] ++ beBytes 2 count)) s = .next (fetchAt tag ([b] ++ beBytes 2 count) (s.taken rest)) :=
  congrArg _ (serve_requested h rfl)

theorem fetchRequest_count (h : count < 65536) : field ([b] ++ beBytes 2 count) 1 2 = count := by
  simpa using field_beBytes [b] [] 2 count h

section
variable (hb : b.toNat = w.val) (hcount : count < 65536)
include hb hcount

theorem fetchAt_refused {status : Status} (h : fetchRefusal w count s = some status) :
    fetchAt tag ([b] ++ beBytes 2 count) s = makeReply tag false status
      (fetchBody b (fetchSizeCode w s) (s.window w).cursor (s.window w).cursor []) s := by
  have hwindow : field ([b] ++ beBytes 2 count) 0 1 = w.val := (field_head b _).trans hb
  simp only [fetchAt, fetchRequest_count hcount, hwindow, windowArg_val, h]
  rfl

theorem fetchAt_passes (h : fetchRefusal w count s = none) :
    fetchAt tag ([b] ++ beBytes 2 count) s = storeGrant (fetchNext w (startFetch tag w count s) s) := by
  have hwindow : field ([b] ++ beBytes 2 count) 0 1 = w.val := (field_head b _).trans hb
  simp only [fetchAt, fetchRequest_count hcount, hwindow, windowArg_val, h]

end

/-! ### The tests of a FETCH, in their order (R126) -/

theorem fetchRefusal_badState (h : (s.window w).state = .closed) : fetchRefusal w count s = some .badState := if_pos h

section
variable (hopen : (s.window w).state ≠ .closed)
include hopen

theorem fetchRefusal_busy (h : (s.window w).fetch.isSome = true) : fetchRefusal w count s = some .busy :=
  (if_neg hopen).trans (if_pos h)

variable (hidle : (s.window w).fetch = none)
include hidle

theorem fetchRefusal_badArg (h : count = 0 ∨ 256 < count) : fetchRefusal w count s = some .badArg := by
  have hcount : count < 1 ∨ 256 < count := by omega
  rw [fetchRefusal, if_neg hopen, hidle]
  exact if_pos hcount

/-- A FETCH of an open window with no fetch and a count in range leaves the tests of the region and the cursor. -/
theorem fetchRefusal_counted (h : 1 ≤ count) (hmax : count ≤ 256) : fetchRefusal w count s =
    let x := s.window w
    let g := s.region x.region
    if g.state = .faulted then some .faulted
    else if x.last < x.cursor then some .atEnd
    else if g.committed ≤ x.cursor then if g.capturing then some .notYet else some .atEnd
    else if g.retained x.cursor = false then some .expired
    else none := by
  have hcount : ¬(count < 1 ∨ 256 < count) := by omega
  simp only [fetchRefusal, if_neg hopen, hidle, if_neg hcount]
  rfl

end

end

/-- A seq below committed is retained in the anchor area and from the oldest rolling seq on (R81). -/
theorem Region.retained_iff {g : Region} {k : Nat} (h : k < g.committed) :
    g.retained k = true ↔ k < g.anchor * g.rpp ∨ g.oldest ≤ k := by
  simp [Region.retained, h]

/-- The retained interval that holds a cursor ends with the anchor area where a gap follows it, and at committed otherwise
(R127). -/
theorem Region.intervalEnd_eq (g : Region) (k : Nat) : g.intervalEnd k =
    if k < g.anchor * g.rpp ∧ g.oldest ≠ g.anchor * g.rpp then g.anchor * g.rpp else g.committed := by
  unfold Region.intervalEnd
  split_ifs <;> simp_all

/-- A number that is at most each of the five values, and is one of them, is their least (R127). -/
theorem fetchTotal_eq {x : Window} {g : Region} {count n : Nat}
    (hle : n ≤ count ∧ n ≤ g.rpp ∧ x.cursor + n ≤ x.last + 1 ∧ x.cursor + n ≤ g.committed ∧
      x.cursor + n ≤ g.intervalEnd x.cursor)
    (heq : n = count ∨ n = g.rpp ∨ x.cursor + n = x.last + 1 ∨ x.cursor + n = g.committed ∨
      x.cursor + n = g.intervalEnd x.cursor) : fetchTotal x g count = n := by
  unfold fetchTotal
  omega

/-! ### CLOSE (R134, R135) -/

section
variable {b tag : Byte} {rest : List Request} {s : State} {w : WindowId}

/-- A CLOSE reaches the fetch engine. -/
theorem exec_closeWindow_requested (h : Requested s 0x32 tag [b] rest) :
    exec (.closeWindow tag [b]) s = .next (closeAt tag [b] (s.taken rest)) :=
  congrArg _ (serve_requested h rfl)

section
variable (hb : b.toNat = w.val)
include hb

theorem closeAt_closed (h : (s.window w).state = .closed) :
    closeAt tag [b] s = makeReply tag false .ok (b :: List.replicate 7 0) s := by
  simp only [closeAt, field_head, hb, windowArg_val, h, numberByte_of_toNat hb]
  rfl

theorem closeAt_closing (h : (s.window w).state = .closing) :
    closeAt tag [b] s = makeReply tag false .busy (b :: List.replicate 7 0) s := by
  simp only [closeAt, field_head, hb, windowArg_val, h, numberByte_of_toNat hb]
  rfl

theorem closeAt_fetching {f : Fetch} (h : (s.window w).state = .opened) (hf : (s.window w).fetch = some f) :
    closeAt tag [b] s = beginClosing w f tag s := by
  simp only [closeAt, field_head, hb, windowArg_val, h, hf]

theorem closeAt_idle (h : (s.window w).state = .opened) (hf : (s.window w).fetch = none) :
    closeAt tag [b] s = makeReply tag false .ok (closeBody b (s.window w).cursor (s.window w).pin)
      (storeGrant (becomeClosed w s)) := by
  simp only [closeAt, field_head, hb, windowArg_val, h, hf, numberByte_of_toNat hb, answer]

end

end

/-! ### The end of a fetch (R131, R135, R142) -/

section
variable {s : State} {w : WindowId} {f : Fetch} {status : Status} {records : List (List Byte)}

/-- The closing of a window that no CLOSE waits for. -/
theorem closeAfterFetch_quiet (h : (s.window w).closeTag = none) : closeAfterFetch w s = becomeClosed w s := by
  simp only [closeAfterFetch, h]

/-- The closing of a window that a CLOSE waits for: its reply is made last. -/
theorem closeAfterFetch_answers {c : CloseTag} (h : (s.window w).closeTag = some c) : closeAfterFetch w s =
    makeReply c.tag c.stale .ok (closeBody (numberByte w.val) (s.window w).cursor (s.window w).pin) (becomeClosed w s) := by
  simp only [closeAfterFetch, h]

/-- The state after a fetch's end, before its window closes (R131). -/
def fetchEnded (w : WindowId) (f : Fetch) (status : Status) (records : List (List Byte)) (s : State) : State :=
  (makeReply f.tag f.stale status
    (fetchBody (numberByte w.val) (fetchSizeCode w s) f.firstSeq (f.firstSeq + records.length) records) s).setWindow w
    { s.window w with cursor := (s.window w).cursor + records.length, fetch := none }

theorem fetchEnd_stays (h : ¬((s.window w).state = .closing ∨ s.device = .restarting)) :
    fetchEnd w f status records s = fetchEnded w f status records s := if_neg h

theorem fetchEnd_closes (h : (s.window w).state = .closing ∨ s.device = .restarting) :
    fetchEnd w f status records s = closeAfterFetch w (fetchEnded w f status records s) := if_pos h

theorem fetchEnded_window : (fetchEnded w f status records s).window w =
    { s.window w with cursor := (s.window w).cursor + records.length, fetch := none } := by
  simp [fetchEnded]

end

end Sys2Proof.Machine

open Sys2Proof Sys2Proof.Machine

/-- Settles O31: the fetch ends as `fetchEnded` says; then its window closes or stays. -/
theorem fetchEnds : Obligations.FetchEnds := by
  intro s w f status records x n size number body ended t shut noticed closes
  have hended : (fetchEnded w f status records s).window w = ended := fetchEnded_window
  have hclosed : becomeClosed w (fetchEnded w f status records s) = noticed := by
    rw [becomeClosed, hended]
    rfl
  refine ⟨rfl, rfl, rfl, fun hc => fetchEnd_stays hc, fun hc hq => ?quiet, fun hc c hq => ?answers⟩
  case quiet =>
    rw [fetchEnd_closes hc, closeAfterFetch_quiet (by rw [hended]; exact hq), hclosed]
  case answers =>
    rw [fetchEnd_closes hc, closeAfterFetch_answers (by rw [hended]; exact hq), hclosed, hended]
    rfl

/-- Settles O51: the ranges first, then the tests of R123 and R124 in their order. -/
theorem openSetsTheWindow : Obligations.OpenSetsTheWindow := by
  intro s tag b c pin rest first last hf hl body h answered
  have hexec : exec (.openWindow tag body) s = .next (openAt tag body (s.taken rest)) := exec_openWindow_requested h
  rw [hexec]
  refine ⟨fun hc => congrArg _ ?noRegion, fun r hc => ⟨fun hbad => congrArg _ ?badArg, fun w hb hp => ?tests⟩⟩
  case noRegion => exact (openAt_badArg hf hl (.inl hc)).trans (by rw [openRefusedBody_outOfRange hf hl hc]; rfl)
  case badArg => exact (openAt_badArg hf hl (.inr hbad)).trans (by rw [openRefusedBody_inRange hf hl hc]; rfl)
  case tests =>
    intro serves lost early closed
    have hlosing : (decide (pin = 1) = true ∧ (s.region r).lostInRange first last = true) ↔ lost := by
      rw [decide_eq_true_eq, Region.lostInRange_iff]
    have hearlier : (decide (pin = 1) = true ∧ (s.region r).committed ≤ last) ↔ early := by
      rw [decide_eq_true_eq]
    have hrefused {status : Status} (hr : openRefusal w r ⟨first, last, pin = 1⟩ (s.taken rest) = some status) :
        .next (openAt tag body (s.taken rest)) =
          answered status 0 0 (s.region r).committed (s.region r).oldest (s.taken rest) :=
      congrArg _ (openAt_refused hf hl hb hc hp hr)
    have hserves (hw : closed) (hs : serves) :=
      openRefusal_serves (a := ⟨first, last, pin = 1⟩) (s := s.taken rest) hw hs
    have hkept (hw : closed) (hs : serves) (hr : first ≤ last) (hlost : ¬lost) :=
      (hserves hw hs).trans ((if_neg (Nat.not_lt.2 hr)).trans (if_neg (mt hlosing.1 hlost)))
    refine ⟨fun hw => hrefused (openRefusal_busy hw), fun hw hg => hrefused (openRefusal_faulted hw hg),
      fun hw hg hs => hrefused (openRefusal_badState hw hg hs), fun hw hs hr => hrefused ?range,
      fun hw hs hr hlost => hrefused ?expired, fun hw hs hr hlost hearly => hrefused ?notYet,
      fun hw hs hr hlost hearly => congrArg _ ((openAt_passes hf hl hb hc hp ?none).trans ?opened)⟩
    case range => exact (hserves hw hs).trans (if_pos hr)
    case expired => exact (hserves hw hs).trans ((if_neg (Nat.not_lt.2 hr)).trans (if_pos (hlosing.2 hlost)))
    case notYet => exact (hkept hw hs hr hlost).trans (if_pos (hearlier.2 hearly))
    case none => exact (hkept hw hs hr hlost).trans (if_neg (mt hearlier.1 hearly))
    case opened =>
      rw [openBody, pinFlag_code hp]
      simp only [openedWindow, decide_eq_true_eq]
      rfl

/-- Settles O52: the tests of R126 in their order; the five values of R127 have one least. -/
theorem fetchGathersTheLeastOfFive : Obligations.FetchGathersTheLeastOfFive := by
  intro s tag b rest w count hb hcount h x g k split kept refused step
  have hexec : step = .next (fetchAt tag ([b] ++ beBytes 2 count) (s.taken rest)) := exec_fetch_requested h
  have hrefused {status : Status} (hr : fetchRefusal w count (s.taken rest) = some status) : step = refused status :=
    hexec.trans (congrArg _ (fetchAt_refused hb hcount hr))
  refine ⟨fun hw => hrefused (fetchRefusal_badState hw), fun hw hf => hrefused (fetchRefusal_busy hw hf),
    fun hw hf hn => hrefused (fetchRefusal_badArg hw hf hn), fun hw hf hn hmax => ?counted⟩
  case counted =>
    have htests := fetchRefusal_counted (s := s.taken rest) hw hf hn hmax
    have hinRange (hg : g.state ≠ .faulted) (hk : k ≤ x.last) :=
      htests.trans ((if_neg hg).trans (if_neg (Nat.not_lt.2 hk)))
    have hcommitted (hg : g.state ≠ .faulted) (hk : k ≤ x.last) (hc : k < g.committed) :=
      (hinRange hg hk).trans (if_neg (Nat.not_le.2 hc))
    refine ⟨fun hg => hrefused (htests.trans (if_pos hg)),
      fun hg hk => hrefused (htests.trans ((if_neg hg).trans (if_pos hk))),
      fun hg hk hc hcap => hrefused ((hinRange hg hk).trans ((if_pos hc).trans (if_pos hcap))),
      fun hg hk hc hcap => hrefused ((hinRange hg hk).trans ((if_pos hc).trans (if_neg (Bool.eq_false_iff.1 hcap)))),
      fun hg hk hc hlost => hrefused ((hcommitted hg hk hc).trans (if_pos ?expired)), fun hg hk hc hkept => ?passes⟩
    case expired => exact Bool.eq_false_iff.2 (mt (Region.retained_iff hc).1 hlost)
    case passes =>
      intro bound n hle hleast f
      have hretained : ¬g.retained k = false := by simp [(Region.retained_iff hc).2 hkept]
      have hpasses : fetchRefusal w count (s.taken rest) = none := (hcommitted hg hk hc).trans (if_neg hretained)
      have hbound : g.intervalEnd k = bound := Region.intervalEnd_eq g k
      have htotal : fetchTotal x g count = n := fetchTotal_eq (hbound ▸ hle) (hbound ▸ hleast)
      have hstart : startFetch tag w count (s.taken rest) = f := congrArg
        (fun total => (⟨tag, false, count, total, k, [], k, .lookup, none⟩ : Fetch)) htotal
      rw [hexec, fetchAt_passes hb hcount hpasses, hstart]

/-- Settles O53: CLOSE by the state of the window and the fetch in flight. -/
theorem closeEndsTheWindow : Obligations.CloseEndsTheWindow := by
  intro s tag b rest w hb h x shut
  rw [exec_closeWindow_requested h]
  exact ⟨fun hw => congrArg _ (closeAt_closed hb hw), fun hw => congrArg _ (closeAt_closing hb hw),
    fun hw f hf => congrArg _ (closeAt_fetching hb hw hf), fun hw hf => congrArg _ (closeAt_idle hb hw hf)⟩
end

section
/-! SUPPORT. The event queue (chapter 9): whose mask names a key (R66, R182), what a raise does to the keys of the pending list
(R158), and how many keys there are (R155). -/

namespace Sys2Proof.Machine

variable {s : State} {key : EventKey} {payload : Payload}

/-! ### A raise -/

theorem raiseEvent_masked (h : masked s key = true) : raiseEvent key payload s = s := if_pos h

theorem raiseEvent_unmasked (h : masked s key = false) : raiseEvent key payload s =
    arbitrate { s with events := { s.events with entries := enqueue s.events.entries key payload } } :=
  if_neg (Bool.eq_false_iff.1 h)

/-- Replacing the entry of a pending key leaves the keys, and appending one adds a key that is not pending. -/
theorem enqueue_keys (l : List EventEntry) (key : EventKey) (payload : Payload) :
    (enqueue l key payload).map (·.key) =
      if key ∈ l.map (·.key) then l.map (·.key) else l.map (·.key) ++ [key] := by
  have hpending : l.any (fun e => e.key = key) = true ↔ key ∈ l.map (·.key) := by simp
  unfold enqueue
  by_cases h : key ∈ l.map (·.key)
  · rw [if_pos (hpending.2 h), if_pos h, List.map_map]
    refine List.map_congr_left fun e _ => ?_
    by_cases he : e.key = key <;> simp [he]
  · rw [if_neg (mt hpending.1 h), if_neg h, List.map_append, List.map_singleton]

theorem enqueue_nodup {l : List EventEntry} (h : (l.map (·.key)).Nodup) (key : EventKey) (payload : Payload) :
    ((enqueue l key payload).map (·.key)).Nodup := by
  rw [enqueue_keys]
  split
  · exact h
  · next hnew => exact h.append (List.nodup_singleton key) (List.disjoint_singleton.2 hnew)

/-! ### The keys (R155) -/

/-- The five keys of a region. -/
def EventKey.ofRegion (r : RegionId) : List EventKey := [.triggered r, .stopped r, .mark r, .starved r, .mediaError r]

/-- Every key: of the block, of the 16 regions, of the 4 windows and of the 4 ports. -/
def EventKey.all : List EventKey :=
  [EventKey.ready, EventKey.linkError, EventKey.poolLow] ++ (List.finRange 16).flatMap EventKey.ofRegion ++
    (List.finRange 4).map EventKey.pinBroken ++ (List.finRange 4).map EventKey.overrun

theorem EventKey.mem_all (key : EventKey) : key ∈ EventKey.all := by
  cases key <;> simp [EventKey.all, EventKey.ofRegion]

theorem State.keysDistinct.length_le (h : s.keysDistinct) : s.events.entries.length ≤ 91 := by
  have hall := (List.subperm_of_subset h fun key _ => key.mem_all).length_le
  rwa [List.length_map] at hall

end Sys2Proof.Machine

open Sys2Proof Sys2Proof.Machine

/-- Settles O9: the mask first, then the two cases of the pending list. -/
theorem raiseTakesTheFirstCase : Obligations.RaiseTakesTheFirstCase := by
  intro s key payload
  refine ⟨fun r => ⟨rfl, rfl, rfl, rfl, rfl⟩, rfl, rfl, rfl, fun _ => rfl, fun _ => rfl, raiseEvent_masked,
    fun hm before e after hentries hkey hothers => ?_, fun hm hnew => ?_⟩
  · rw [raiseEvent_unmasked hm, hentries, enqueue_pending before e after key payload hkey hothers]
  · rw [raiseEvent_unmasked hm, enqueue_new hnew]
end

section
/-! SUPPORT. What a command can do to the pending events and to the entries of the slot cache (`Evolves`): the two invariants
follow from that once (R85, R155), and each operation is shown to do nothing else. -/

namespace Sys2Proof.Machine

/-! ### Entries of the slot cache -/

/-- An entry placed where its pair is held, or while no entry holds it, keeps the pairs distinct (R85). -/
theorem Cache.distinct.place {c d : Cache} {i : Fin 24} {e : CacheEntry} (hc : c.distinct)
    (hd : d.entries = c.entries.set i.val (some e) i.isLt)
    (hfind : c.find e.region e.slot = none ∨ c.find e.region e.slot = some i) : d.distinct := by
  have hheld {j : Fin 24} {a : CacheEntry} (ha : c.entries.get j = some a) (hr : a.region = e.region)
      (hs : a.slot = e.slot) : j = i := by
    have hj := Cache.find_pair hc ha hr hs
    rcases hfind with h | h
    · exact nomatch hj.symm.trans h
    · exact Option.some.inj (hj.symm.trans h)
  intro j k a b ha hb hr hs
  rw [hd, vector_get_set] at ha hb
  split at ha <;> split at hb
  · next hj hk => exact hj.trans hk.symm
  · next hj _ =>
    cases ha
    exact hj.trans (hheld hb hr.symm hs.symm).symm
  · next _ hk =>
    cases hb
    exact (hheld ha hr hs).trans hk.symm
  · exact hc j k a b ha hb hr hs

/-- An install fills one entry (R90). -/
theorem Cache.install_entries (c : Cache) (e : CacheEntry) :
    ∃ i : Fin 24, (c.install e).entries = c.entries.set i.val (some e) i.isLt := by
  unfold Cache.install
  split
  · next i _ => exact ⟨i, rfl⟩
  · exact ⟨c.victim, rfl⟩

/-- The pair of a region and slot has no page just where no entry holds it. -/
theorem Cache.find_of_pageOf {c : Cache} {r : RegionId} {slot : Nat} (h : c.pageOf r slot = none) : c.find r slot = none := by
  unfold Cache.pageOf at h
  split at h
  · next i hi =>
    obtain ⟨e, he, -, -⟩ := Cache.find_some hi
    simp [he] at h
  · next hn => exact hn

/-! ### The relation -/

/-- What operations make of the pending events and the slot cache of `s`: pending entries and valid cache entries go, a raise is
entered (R158), or an entry is placed in the cache over the one that holds its pair or while none does (R89, R92). -/
inductive Evolves (s : State) : State → Prop
  | refl : Evolves s s
  | fewer {t u : State} (h : Evolves s t) (hevents : u.events.entries.Sublist t.events.entries)
      (hcache : ∀ i e, u.cache.entries.get i = some e → t.cache.entries.get i = some e) : Evolves s u
  | raised {t u : State} {key : EventKey} {payload : Payload} (h : Evolves s t)
      (hevents : u.events.entries = enqueue t.events.entries key payload) (hcache : u.cache = t.cache) : Evolves s u
  | placed {t u : State} {i : Fin 24} {e : CacheEntry} (h : Evolves s t) (hevents : u.events = t.events)
      (hcache : u.cache.entries = t.cache.entries.set i.val (some e) i.isLt)
      (hfind : t.cache.find e.region e.slot = none ∨ t.cache.find e.region e.slot = some i) : Evolves s u

variable {s₀ s t : State}

theorem Evolves.keysDistinct (h : Evolves s₀ s) (hk : s₀.keysDistinct) : s.keysDistinct := by
  induction h with
  | refl => exact hk
  | fewer _ hevents _ ih => exact ih.sublist (hevents.map _)
  | raised _ hevents _ ih =>
    unfold State.keysDistinct
    exact hevents ▸ enqueue_nodup ih _ _
  | placed _ hevents _ _ ih =>
    unfold State.keysDistinct
    exact hevents ▸ ih

theorem Evolves.distinct (h : Evolves s₀ s) (hc : s₀.cache.distinct) : s.cache.distinct := by
  induction h with
  | refl => exact hc
  | fewer _ _ hcache ih => exact fun i j a b ha hb => ih i j a b (hcache i a ha) (hcache j b hb)
  | raised _ _ hcache ih => exact hcache ▸ ih
  | placed _ _ hcache hfind ih => exact ih.place hcache hfind

/-- Every other block may change. -/
theorem Evolves.frame (h : Evolves s₀ s) (e : t.events = s.events ∧ t.cache = s.cache) : Evolves s₀ t := by
  obtain ⟨hevents, hcache⟩ := e
  exact h.fewer (hevents ▸ List.Sublist.refl _) fun _ _ => hcache ▸ id

theorem Evolves.drop (h : Evolves s₀ s) (hevents : t.events.entries.Sublist s.events.entries) (hcache : t.cache = s.cache) :
    Evolves s₀ t :=
  h.fewer hevents fun _ _ => hcache ▸ id

theorem Evolves.invalidate {c : Cache} (h : Evolves s₀ s)
    (hcache : ∀ i e, c.entries.get i = some e → s.cache.entries.get i = some e) : Evolves s₀ (s.setCache c) :=
  h.fewer (List.Sublist.refl _) hcache

/-! ### Raises and replies -/

/-- The arbiter takes the head of the pending list at most (R160). -/
theorem arbitrate_entries (s : State) : (arbitrate s).events.entries.Sublist s.events.entries := by
  have hevent {e : EventEntry} {es : List EventEntry} (h : s.events.entries = e :: es) :
      (startEvent e es s).events.entries.Sublist s.events.entries := by
    rw [h]
    exact List.sublist_cons_self e es
  unfold arbitrate
  split
  · exact .refl _
  · split
    · exact .refl _
    · next h => exact hevent h
    · exact .refl _
    · next h =>
      split
      · exact .refl _
      · exact hevent h

theorem arbitrate_evolves (h : Evolves s₀ s) : Evolves s₀ (arbitrate s) := h.drop (arbitrate_entries s) (by simp)

theorem raiseEvent_evolves {key : EventKey} {payload : Payload} (h : Evolves s₀ s) :
    Evolves s₀ (raiseEvent key payload s) := by
  unfold raiseEvent
  split
  · exact h
  · exact arbitrate_evolves (h.raised rfl rfl)

theorem makeReply_evolves {tag : Byte} {stale : Bool} {status : Status} {body : List Byte} (h : Evolves s₀ s) :
    Evolves s₀ (makeReply tag stale status body s) := by
  unfold makeReply
  split
  · exact h
  · exact arbitrate_evolves (h.frame ⟨rfl, rfl⟩)

theorem evaluateNotice_evolves (h : Evolves s₀ s) : Evolves s₀ (evaluateNotice s) := by
  unfold evaluateNotice
  split
  · exact h
  · split
    · split
      · exact raiseEvent_evolves (h.frame ⟨rfl, rfl⟩)
      · exact h
    · split
      · exact h.frame ⟨rfl, rfl⟩
      · exact h

/-! ### Reservations and claims -/

theorem reserve_evolves {r : RegionId} {n : Nat} (h : Evolves s₀ s) (ht : reserve r n s = some t) : Evolves s₀ t := by
  obtain ⟨-, rfl⟩ := reserve_some ht
  exact evaluateNotice_evolves (h.frame ⟨rfl, rfl⟩)

theorem claimPage_evolves {r : RegionId} {page : Nat} (h : Evolves s₀ s) (ht : claimPage r s = some (page, t)) :
    Evolves s₀ t := by
  obtain ⟨rest, -, ⟨-, rfl⟩ | ⟨-, -, rfl⟩⟩ := claimPage_some ht
  all_goals exact evaluateNotice_evolves (h.frame (by simp))

theorem returnReservation_evolves {r : RegionId} (h : Evolves s₀ s) : Evolves s₀ (returnReservation r s) := by
  unfold returnReservation
  split
  · exact h
  · exact evaluateNotice_evolves (h.frame ⟨rfl, rfl⟩)

/-! ### The slot cache (chapter 5) -/

/-- A lookup counts its hit or miss and leaves the entries (R87, R88). -/
theorem lookupSlot_evolves {r : RegionId} {slot : Nat} {who : Requester} (h : Evolves s₀ s) :
    Evolves s₀ (lookupSlot r slot who s).2 := by
  unfold lookupSlot
  split
  · exact h.invalidate fun _ _ => id
  · exact (h.invalidate (c := s.cache.miss) fun _ _ => id).frame ⟨rfl, rfl⟩

/-- An install for a pair that no entry holds. -/
theorem install_evolves {e : CacheEntry} (h : Evolves s₀ s) (hfind : s.cache.find e.region e.slot = none) :
    Evolves s₀ (s.setCache (s.cache.install e)) := by
  obtain ⟨i, hi⟩ := s.cache.install_entries e
  exact h.placed rfl hi (.inl hfind)

theorem writeUpdate_evolves {r : RegionId} {slot page : Nat} (h : Evolves s₀ s) : Evolves s₀ (writeUpdate r slot page s) := by
  unfold writeUpdate
  split
  · exact h
  · split
    · next i hi => exact h.placed (i := i) (e := ⟨r, slot, page⟩) rfl rfl (.inr hi)
    · next hn => exact install_evolves h hn

theorem fillPageNumber_evolves {r : RegionId} {slot page : Nat} (h : Evolves s₀ s) :
    Evolves s₀ (fillPageNumber r slot page s).2 := by
  unfold fillPageNumber
  split
  · split
    · exact h
    · next hn => exact install_evolves h (Cache.find_of_pageOf hn)
  · exact h

theorem purgeRegion_evolves {r : RegionId} (h : Evolves s₀ s) : Evolves s₀ (s.setCache (s.cache.purgeRegion r)) :=
  h.invalidate fun i e he => ((s.cache.purgeRegion_get r i e).1 he).1

theorem Cache.reset_get (i : Fin 24) (e : CacheEntry) : Cache.reset.entries.get i ≠ some e := by
  simp [Cache.reset]

theorem purgeAll_evolves (h : Evolves s₀ s) : Evolves s₀ (purgeAll s) :=
  h.invalidate fun i e he => absurd he (Cache.reset_get i e)

/-! ### The writers -/

theorem setPort_evolves {p : PortId} {q : Port} (h : Evolves s₀ s) : Evolves s₀ (s.setPort p q) := h.frame ⟨rfl, rfl⟩

theorem setWindow_evolves {w : WindowId} {x : Window} (h : Evolves s₀ s) : Evolves s₀ (s.setWindow w x) := h.frame ⟨rfl, rfl⟩

theorem storeGrant_evolves (h : Evolves s₀ s) : Evolves s₀ (storeGrant s) := h.frame ⟨rfl, rfl⟩

theorem markerReport_evolves {r : RegionId} {k : Nat} (h : Evolves s₀ s) : Evolves s₀ (markerReport r k s) := by
  unfold markerReport
  split
  · exact raiseEvent_evolves (h.frame ⟨rfl, rfl⟩)
  · exact h

theorem issueRecordWrite_evolves {p : PortId} {r : RegionId} {page : Nat} (h : Evolves s₀ s) :
    Evolves s₀ (issueRecordWrite p r page s) := by
  unfold issueRecordWrite
  split
  · exact h
  · dsimp only
    split
    · exact markerReport_evolves (h.frame ⟨rfl, rfl⟩)
    · exact h.frame ⟨rfl, rfl⟩

theorem claimEnds_evolves {p : PortId} {r : RegionId} {l page : Nat} (h : Evolves s₀ s) :
    Evolves s₀ (claimEnds p r l page s) := issueRecordWrite_evolves (setPort_evolves h)

theorem breakPins_evolves {r : RegionId} {l : Nat} (ws : List WindowId) (h : Evolves s₀ s) :
    Evolves s₀ (ws.foldl (breakPin r l) s) := by
  induction ws generalizing s with
  | nil => exact h
  | cons w ws ih => exact ih (raiseEvent_evolves (setWindow_evolves h))

theorem pinCheck_evolves {r : RegionId} {l : Nat} (h : Evolves s₀ s) : Evolves s₀ (pinCheck r l s).2 := by
  unfold pinCheck
  split
  · split
    · exact h.frame ⟨rfl, rfl⟩
    · next w ws _ =>
      split
      · exact h
      · exact (breakPins_evolves (w :: ws) h).frame ⟨rfl, rfl⟩
  · exact h

theorem recycleStep_evolves {p : PortId} {r : RegionId} {l : Nat} {rc : Recycle} {page : Nat} (h : Evolves s₀ s) :
    Evolves s₀ (recycleStep p r l rc page s) := by
  have hcheck : Evolves s₀ (pinCheck r rc.oldPage s).2 := pinCheck_evolves h
  unfold recycleStep
  dsimp only
  split
  · exact claimEnds_evolves hcheck
  · exact raiseEvent_evolves (setPort_evolves hcheck)
  · exact hcheck

theorem recycleLookup_evolves {p : PortId} {r : RegionId} {l : Nat} (h : Evolves s₀ s) :
    Evolves s₀ (recycleLookup p r l s) := by
  unfold recycleLookup
  dsimp only
  split
  · exact recycleStep_evolves (lookupSlot_evolves h)
  · exact setPort_evolves (lookupSlot_evolves h)

theorem wrapThenRecycle_evolves {p : PortId} {r : RegionId} {l : Nat} (h : Evolves s₀ s) :
    Evolves s₀ (wrapThenRecycle p r l s) := recycleLookup_evolves (h.frame ⟨rfl, rfl⟩)

theorem freshPage_evolves {p : PortId} {r : RegionId} {l page : Nat} (h : Evolves s₀ s) :
    Evolves s₀ (freshPage p r l page s) :=
  setPort_evolves (writeUpdate_evolves (h.frame (by simp)))

theorem pageClaim_evolves {p : PortId} {r : RegionId} {l : Nat} (h : Evolves s₀ s) : Evolves s₀ (pageClaim p r l s) := by
  unfold pageClaim
  dsimp only
  split
  · split
    · next hc => exact freshPage_evolves (claimPage_evolves h hc)
    · exact wrapThenRecycle_evolves h
  · exact wrapThenRecycle_evolves h

theorem takeHead_evolves {p : PortId} (h : Evolves s₀ s) : Evolves s₀ (takeHead p s) := by
  unfold takeHead
  dsimp only
  split
  · exact h
  · split
    · split
      · exact pageClaim_evolves h
      · split
        · exact issueRecordWrite_evolves h
        · exact h
    · exact h

theorem notifyCapturing_evolves {r : RegionId} (h : Evolves s₀ s) : Evolves s₀ (notifyCapturing r s) := by
  unfold notifyCapturing
  split
  · exact takeHead_evolves (setPort_evolves h)
  · exact h

theorem pinEndNotice_evolves {r : RegionId} (h : Evolves s₀ s) : Evolves s₀ (pinEndNotice r s) := by
  unfold pinEndNotice
  split
  · exact h
  · split
    · exact recycleStep_evolves h
    · exact h

/-! ### Completions, stops and faults (chapters 3 and 8) -/

theorem raiseStopped_evolves {r : RegionId} (h : Evolves s₀ s) : Evolves s₀ (raiseStopped r s) := raiseEvent_evolves h

theorem stopRegion_evolves {r : RegionId} {cause : StopCause} (h : Evolves s₀ s) : Evolves s₀ (stopRegion r cause s) := by
  have hleft := h.frame (t := s.setRegion r { s.region r with state := .stopped, stopCause := some cause }) ⟨rfl, rfl⟩
  exact raiseStopped_evolves ((returnReservation_evolves (r := r) hleft).frame (by simp))

theorem markCheck_evolves {r : RegionId} (h : Evolves s₀ s) : Evolves s₀ (markCheck r s) := by
  unfold markCheck
  dsimp only
  split
  · exact raiseEvent_evolves h
  · exact h

theorem stopChecks_evolves {r : RegionId} (h : Evolves s₀ s) : Evolves s₀ (stopChecks r s) := by
  unfold stopChecks
  dsimp only
  split
  · exact stopRegion_evolves h
  · split
    · exact stopRegion_evolves h
    · exact h

theorem completionReport_evolves {r : RegionId} (h : Evolves s₀ s) : Evolves s₀ (completionReport r s) := by
  unfold completionReport
  dsimp only
  split
  · exact stopChecks_evolves (markCheck_evolves (h.frame ⟨rfl, rfl⟩))
  · split
    · exact raiseStopped_evolves (h.frame ⟨rfl, rfl⟩)
    · exact h

/-- The cascade without its two events purges the region's entries of the cache (R62 step 4) and raises at most a POOL_LOW. -/
theorem faultQuiet_evolves {r : RegionId} (h : Evolves s₀ s) : Evolves s₀ (faultQuiet r s) := by
  have hleft := h.frame (t := s.setRegion r ((s.region r).faulted r)) ⟨rfl, rfl⟩
  have hpurged := purgeRegion_evolves (r := r) (returnReservation_evolves (r := r) hleft)
  exact hpurged.frame (by simp [faultQuiet])

theorem faultReport_evolves {r : RegionId} (h : Evolves s₀ s) : Evolves s₀ (faultReport r s) := by
  by_cases hserves : (s.region r).capturing = true ∨ (s.region r).state = .stopped
  · rw [faultReport_eq hserves]
    exact raiseEvent_evolves (raiseEvent_evolves (faultQuiet_evolves h))
  · by_cases hfaulted : (s.region r).state = .faulted
    · rw [faultReport_faulted hfaulted]
      exact raiseEvent_evolves h
    · have hnone : faultReport r s = s := (if_neg hserves).trans (if_neg hfaulted)
      rwa [hnone]

/-! ### The fetch engine (chapter 7) -/

theorem becomeClosed_evolves {w : WindowId} (h : Evolves s₀ s) : Evolves s₀ (becomeClosed w s) := by
  unfold becomeClosed
  dsimp only
  split
  · exact pinEndNotice_evolves (setWindow_evolves h)
  · exact setWindow_evolves h

theorem closeAfterFetch_evolves {w : WindowId} (h : Evolves s₀ s) : Evolves s₀ (closeAfterFetch w s) := by
  unfold closeAfterFetch
  dsimp only
  split
  · exact makeReply_evolves (becomeClosed_evolves h)
  · exact becomeClosed_evolves h

theorem fetchEnd_evolves {w : WindowId} {f : Fetch} {status : Status} {records : List (List Byte)} (h : Evolves s₀ s) :
    Evolves s₀ (fetchEnd w f status records s) := by
  unfold fetchEnd
  dsimp only
  split
  · exact closeAfterFetch_evolves (setWindow_evolves (makeReply_evolves h))
  · exact setWindow_evolves (makeReply_evolves h)

theorem fetchEndByCause_evolves {w : WindowId} {f : Fetch} {cause : EndCause} (h : Evolves s₀ s) :
    Evolves s₀ (fetchEndByCause w f cause s) := by
  cases cause <;> exact fetchEnd_evolves h

theorem fetchRead_evolves {w : WindowId} {f : Fetch} {page : Nat} (h : Evolves s₀ s) : Evolves s₀ (fetchRead w f page s) :=
  h.frame ⟨rfl, rfl⟩

theorem fetchNext_evolves {w : WindowId} {f : Fetch} (h : Evolves s₀ s) : Evolves s₀ (fetchNext w f s) := by
  unfold fetchNext
  dsimp only
  split
  · exact fetchRead_evolves (lookupSlot_evolves h)
  · exact setWindow_evolves (lookupSlot_evolves h)

theorem fetchAnswer_evolves {w : WindowId} {page : Option Nat} (h : Evolves s₀ s) : Evolves s₀ (fetchAnswer w page s) := by
  unfold fetchAnswer
  split
  · exact h
  · split
    · exact fetchEndByCause_evolves h
    · exact fetchRead_evolves h
    · exact fetchEndByCause_evolves h

theorem fetchRecord_evolves {w : WindowId} {f : Fetch} {bytes : List Byte} (h : Evolves s₀ s) :
    Evolves s₀ (fetchRecord w f bytes s) := by
  unfold fetchRecord
  dsimp only
  split
  · exact fetchEnd_evolves h
  · split
    · exact fetchEnd_evolves h
    · exact fetchNext_evolves h

theorem restartWindow_evolves {w : WindowId} (h : Evolves s₀ s) : Evolves s₀ (restartWindow s w) := by
  unfold restartWindow
  dsimp only
  split
  · exact setWindow_evolves h
  · split
    · exact becomeClosed_evolves h
    · exact h

end Sys2Proof.Machine
end

section
/-! SUPPORT. Every command does to the pending events and the slot cache what `Evolves` names: `exec_evolves`. -/

namespace Sys2Proof.Machine

variable {s₀ s t : State}

/-- The state that a command taken in `s` comes to, if it comes to one, has evolved from it. -/
def Evolved (s : State) (o : Result) : Prop := ∀ t, o = .next t → Evolves s t

theorem Evolved.next (h : Evolves s t) : Evolved s (.next t) := by
  rintro _ ⟨⟩
  exact h

theorem Evolved.inStore {op : StoreOp} {o : Result} (h : Evolved s o) :
    Evolved s (if op.inStore then o else .fault .outsideStore) := by
  split
  · exact h
  · rintro _ ⟨⟩

/-- A command that changes nothing. -/
theorem Evolved.idle (s : State) : Evolved s (.next s) := .next .refl

/-! ### HARD_RESET and initialization (1.5, 1.6) -/

/-- A hard reset empties the pending list and the slot cache (R98, R165). -/
theorem execHardReset_evolves (cause : ResetCause) (rate : BitVec 2) (mode : InitMode) (s : State) :
    Evolved s (execHardReset cause rate mode s) :=
  .next (Evolves.refl.fewer (List.nil_sublist _) fun i e he => absurd he (Cache.reset_get i e))

theorem completeInitialization_evolves (h : Evolves s₀ s) : Evolves s₀ (completeInitialization s) := by
  unfold completeInitialization
  exact evaluateNotice_evolves (raiseEvent_evolves (h.frame (by simp)))

theorem reportSwept_evolves {page : Nat} {good : Bool} (h : Evolves s₀ s) : Evolves s₀ (reportSwept page good s) := by
  unfold reportSwept
  split
  · exact h.frame ⟨rfl, rfl⟩
  · split
    · exact h
    · exact h.frame (by simp)

theorem sweepAdvance_evolves {page : Nat} (h : Evolves s₀ s) : Evolves s₀ (sweepAdvance page s) := by
  unfold sweepAdvance
  split
  · exact h.frame ⟨rfl, rfl⟩
  · exact completeInitialization_evolves h

theorem execSweepStepComplete_evolves (words : List (Nat × WordRead)) (s : State) :
    Evolved s (execSweepStepComplete words s) := by
  unfold execSweepStepComplete
  split
  · exact .inStore (.next (sweepAdvance_evolves (reportSwept_evolves (Evolves.refl.frame ⟨rfl, rfl⟩))))
  · exact .idle s

theorem execDirectoryClearComplete_evolves (s : State) : Evolved s (execDirectoryClearComplete s) := by
  unfold execDirectoryClearComplete
  split
  · refine .inStore ?_
    dsimp only
    split
    · exact .next (Evolves.refl.frame ⟨rfl, rfl⟩)
    · exact .next (completeInitialization_evolves (Evolves.refl.frame ⟨rfl, rfl⟩))
  · exact .idle s

/-! ### Records at a capture port (6.1, 6.2) -/

theorem dropFull_evolves {p : PortId} (h : Evolves s₀ s) : Evolves s₀ (dropFull p s) := by
  unfold dropFull
  dsimp only
  split
  · exact raiseEvent_evolves (setPort_evolves h)
  · exact setPort_evolves h

theorem stageRecord_evolves {p : PortId} {record : StagedRecord} (h : Evolves s₀ s) :
    Evolves s₀ (stageRecord p record s) := by
  unfold stageRecord
  dsimp only
  split
  · exact storeGrant_evolves (takeHead_evolves (setPort_evolves h))
  · exact setPort_evolves h

theorem recordArrives_evolves {p : PortId} {r : RegionId} {record : StagedRecord} {size : Nat} (h : Evolves s₀ s) :
    Evolves s₀ (recordArrives p r record size s) := by
  unfold recordArrives
  dsimp only
  split
  · exact setPort_evolves h
  · split
    · exact dropFull_evolves h
    · exact stageRecord_evolves h

theorem takePortByte_evolves {p : PortId} {data : Byte} {sor mrk : Bool} (h : Evolves s₀ s) :
    Evolves s₀ (takePortByte p data sor mrk s) := by
  unfold takePortByte
  split
  · split
    · exact setPort_evolves h
    · exact h
  · split
    · split
      · exact setPort_evolves h
      · exact h
    · split
      · exact setPort_evolves (setPort_evolves h)
      · split
        · exact recordArrives_evolves (setPort_evolves h)
        · exact setPort_evolves h

/-! ### Completions of store operations -/

theorem execRecordWriteComplete_evolves (s : State) : Evolved s (execRecordWriteComplete s) := by
  unfold execRecordWriteComplete
  split
  · exact .inStore (.next (storeGrant_evolves (takeHead_evolves (completionReport_evolves (Evolves.refl.frame ⟨rfl, rfl⟩)))))
  · exact .idle s

theorem answerRequester_evolves {r : RegionId} {page : Option Nat} {who : Requester} (h : Evolves s₀ s) :
    Evolves s₀ (answerRequester r page who s) := by
  cases who with
  | writer p =>
    unfold answerRequester writerAnswer
    dsimp only
    split
    · exact recycleStep_evolves h
    · exact setPort_evolves h
  | window w => exact fetchAnswer_evolves h

theorem fillCompletes_evolves {r : RegionId} {slot : Nat} {who : Requester} {page : Option Nat} (h : Evolves s₀ s) :
    Evolves s₀ (fillCompletes r slot who page s) := by
  cases page with
  | some v => exact answerRequester_evolves (fillPageNumber_evolves h)
  | none => exact answerRequester_evolves (faultReport_evolves h)

theorem execDirectoryReadComplete_evolves (word : WordRead) (s : State) : Evolved s (execDirectoryReadComplete word s) := by
  unfold execDirectoryReadComplete
  split
  · exact .inStore (.next (storeGrant_evolves (fillCompletes_evolves (Evolves.refl.frame ⟨rfl, rfl⟩))))
  · exact .idle s

theorem directoryWritten_evolves {p : PortId} {r : RegionId} {page : Nat} (h : Evolves s₀ s) :
    Evolves s₀ (directoryWritten p r page s) := by
  unfold directoryWritten
  split
  · exact claimEnds_evolves h
  · exact setPort_evolves h

theorem execDirectoryWriteComplete_evolves (word : WordRead) (s : State) :
    Evolved s (execDirectoryWriteComplete word s) := by
  unfold execDirectoryWriteComplete
  split
  · refine .inStore ?_
    dsimp only
    split
    · exact .next (storeGrant_evolves (directoryWritten_evolves (Evolves.refl.frame ⟨rfl, rfl⟩)))
    · exact .next (storeGrant_evolves (faultReport_evolves (Evolves.refl.frame ⟨rfl, rfl⟩)))
  · exact .idle s

theorem recordError_evolves {w : WindowId} {page k : Nat} (h : Evolves s₀ s) : Evolves s₀ (recordError w page k s) :=
  raiseEvent_evolves (h.frame (by simp))

theorem recordReadTaken_evolves {w : WindowId} {op : RecordRead} {uncorrectable : Bool} {bytes : List Byte}
    (h : Evolves s₀ s) : Evolves s₀ (recordReadTaken w op uncorrectable bytes s) := by
  unfold recordReadTaken
  split
  · exact h
  · cases uncorrectable with
    | true =>
      dsimp only
      split
      · exact fetchEndByCause_evolves (recordError_evolves h)
      · exact fetchEnd_evolves (recordError_evolves h)
    | false =>
      dsimp only
      split
      · exact fetchEndByCause_evolves h
      · exact fetchRecord_evolves h

theorem execRecordReadComplete_evolves (words : List (Nat × WordOutcome)) (s : State) :
    Evolved s (execRecordReadComplete words s) := by
  unfold execRecordReadComplete
  split
  · exact .inStore (.next (storeGrant_evolves (recordReadTaken_evolves (Evolves.refl.frame ⟨rfl, rfl⟩))))
  · exact .idle s

/-! ### The walks (2.8, 12.3) -/

theorem releaseAdvance_evolves {r : RegionId} {page returned retired : Nat} {tag : Byte} {stale : Bool}
    (h : Evolves s₀ s) : Evolves s₀ (releaseAdvance r page returned retired tag stale s) := by
  unfold releaseAdvance
  split
  · exact h.frame ⟨rfl, rfl⟩
  · have hidle := h.frame (t := s.setRegion r { s.region r with state := .idle }) ⟨rfl, rfl⟩
    exact (makeReply_evolves hidle).frame ⟨rfl, rfl⟩

theorem execReleaseWalkStep_evolves (s : State) : Evolved s (execReleaseWalkStep s) := by
  unfold execReleaseWalkStep
  split
  · split
    · split
      · split
        · exact .next (releaseAdvance_evolves (Evolves.refl.frame (by simp)))
        · exact .next (releaseAdvance_evolves (evaluateNotice_evolves (Evolves.refl.frame (by simp))))
      · exact .next (releaseAdvance_evolves .refl)
    · exact .next (releaseAdvance_evolves .refl)
  · exact .idle s

theorem execRestartWalkBegin_evolves (s : State) : Evolved s (execRestartWalkBegin s) := by
  unfold execRestartWalkBegin
  split
  · exact .next (purgeAll_evolves (Evolves.refl.frame ⟨rfl, rfl⟩))
  · exact .idle s

/-- The pending list is emptied before READY is raised (R164). -/
theorem restartEvents_evolves (h : Evolves s₀ s) : Evolves s₀ (restartEvents s) :=
  raiseEvent_evolves (h.drop (List.nil_sublist _) rfl)

theorem restartReply_evolves (h : Evolves s₀ s) : Evolves s₀ (restartReply s) := by
  unfold restartReply
  dsimp only
  split
  · exact (makeReply_evolves h).frame ⟨rfl, rfl⟩
  · exact h.frame ⟨rfl, rfl⟩

theorem restartCompletes_evolves (h : Evolves s₀ s) : Evolves s₀ (restartCompletes s) := by
  have hports := h.frame (t := (((finishRestartWalk s).setRegions (s.regions.map Region.restarted)).setPorts
    (s.ports.map Port.cleared))) ⟨rfl, rfl⟩
  exact restartReply_evolves (evaluateNotice_evolves ((restartEvents_evolves hports).frame ⟨rfl, rfl⟩))

theorem restartExamine_evolves {page : Nat} (h : Evolves s₀ s) : Evolves s₀ (restartExamine page s) := by
  unfold restartExamine
  split
  · split <;> exact h.frame (by simp)
  · exact h

theorem execRestartWalkStep_evolves (s : State) : Evolved s (execRestartWalkStep s) := by
  unfold execRestartWalkStep
  split
  · next page _ =>
    have hexamined : Evolves s (restartExamine page s) := restartExamine_evolves .refl
    dsimp only
    split
    · exact .next (hexamined.frame ⟨rfl, rfl⟩)
    · exact .next (restartCompletes_evolves hexamined)
  · exact .idle s

/-! ### The host link's line (chapter 10) -/

theorem raiseLinkError_evolves {cause : LinkErrorCause} {tag : Option Byte} (h : Evolves s₀ s) :
    Evolves s₀ (raiseLinkError cause tag s) := raiseEvent_evolves h

theorem setKept_evolves {kept : List Byte} (h : Evolves s₀ s) : Evolves s₀ (s.setKept kept) := h.frame ⟨rfl, rfl⟩

theorem activateLink_evolves (h : Evolves s₀ s) : Evolves s₀ (activateLink s) := by
  unfold activateLink
  dsimp only
  split
  · split
    · exact raiseEvent_evolves (h.frame ⟨rfl, rfl⟩)
    · exact arbitrate_evolves (h.frame ⟨rfl, rfl⟩)
  · exact h

theorem acceptFrame_evolves {q : Request} (h : Evolves s₀ s) : Evolves s₀ (acceptFrame q s) := by
  unfold acceptFrame
  split
  · exact h.frame ⟨rfl, rfl⟩
  · exact raiseLinkError_evolves h

theorem receiveBytes_evolves {steps : Nat} {bytes : List Byte} (h : Evolves s₀ s) :
    Evolves s₀ (receiveBytes steps bytes s) := by
  induction steps generalizing bytes s with
  | zero => exact h
  | succ steps ih =>
    cases bytes with
    | nil => exact h
    | cons b rest =>
      unfold receiveBytes
      split
      · exact ih (setKept_evolves h)
      · exact ih (raiseLinkError_evolves (setKept_evolves h))
      · split
        · exact ih (acceptFrame_evolves (activateLink_evolves (setKept_evolves h)))
        · exact ih (raiseLinkError_evolves (setKept_evolves h))

theorem receiveByte_evolves (data : Byte) (s : State) : Evolved s (.next (receiveByte data s)) :=
  .next (receiveBytes_evolves .refl)

theorem execCharacterTaken_evolves (data : Byte) (stopBit : Bool) (s : State) :
    Evolved s (execCharacterTaken data stopBit s) := by
  unfold execCharacterTaken
  split
  · exact receiveByte_evolves data s
  · exact .idle s

theorem execInterByteTimeout_evolves (s : State) : Evolved s (execInterByteTimeout s) := by
  unfold execInterByteTimeout
  split
  · exact .next (raiseLinkError_evolves (setKept_evolves .refl))
  · exact .idle s

theorem execLinkBreak_evolves (s : State) : Evolved s (execLinkBreak s) := by
  unfold execLinkBreak
  dsimp only
  split <;> exact .next (Evolves.refl.drop (.refl _) rfl)

theorem execTransmitFrameEnd_evolves (s : State) : Evolved s (execTransmitFrameEnd s) := by
  unfold execTransmitFrameEnd
  split
  · exact .next (arbitrate_evolves (Evolves.refl.frame ⟨rfl, rfl⟩))
  · exact .idle s

/-! ### Requests -/

theorem answer_evolves {tag : Byte} {status : Status} {body : List Byte} (h : Evolves s₀ s) :
    Evolves s₀ (answer tag status body s) := makeReply_evolves h

theorem refuse_evolves {tag : Byte} {status : Status} {length : Nat} {number : Byte} (h : Evolves s₀ s) :
    Evolves s₀ (refuse tag status length number s) := answer_evolves h

theorem taken_evolves (s : State) (rest : List Request) : Evolves s (s.taken rest) := Evolves.refl.frame ⟨rfl, rfl⟩

/-- A request command does what its owner does, from the state with the request taken. -/
theorem serve_evolves {kind tag : Byte} {body : List Byte} {owner : State → State} (s : State)
    (howner : ∀ t, Evolves s t → Evolves s (owner t)) : Evolved s (.next (serve kind tag body owner s)) := by
  refine .next ?_
  unfold serve
  split
  · next t ht =>
    obtain ⟨rest, -, -, rfl⟩ := takeRequest_some ht
    unfold dispatch
    split
    · exact answer_evolves (taken_evolves s rest)
    · split
      · exact answer_evolves (taken_evolves s rest)
      · exact howner _ (taken_evolves s rest)
  · exact .refl

theorem execUnknownKind_evolves (kind tag : Byte) (body : List Byte) (s : State) :
    Evolved s (execUnknownKind kind tag body s) := by
  unfold execUnknownKind
  split
  · next t _ ht =>
    obtain ⟨rest, -, -, rfl⟩ := takeRequest_some ht
    exact .next (answer_evolves (taken_evolves s rest))
  · exact .idle s

theorem abandonRelease_evolves (h : Evolves s₀ s) : Evolves s₀ (abandonRelease s) := by
  unfold abandonRelease
  split
  · exact makeReply_evolves (h.frame ⟨rfl, rfl⟩)
  · exact h

theorem closeWindows_evolves (h : Evolves s₀ s) : Evolves s₀ (closeWindows s) := by
  unfold closeWindows
  induction List.finRange 4 generalizing s with
  | nil => exact h
  | cons w ws ih => exact ih (restartWindow_evolves h)

theorem beginRestart_evolves {tag : Byte} (h : Evolves s₀ s) : Evolves s₀ (beginRestart tag s) := by
  have hheld := h.frame (t := ((s.setLink { s.link with engine := .held }).setDevice .restarting).setRestart
    (some ⟨tag, false⟩)) ⟨rfl, rfl⟩
  exact closeWindows_evolves ((abandonRelease_evolves hheld).frame ⟨rfl, rfl⟩)

theorem setNotice_evolves {tag : Byte} {threshold : Nat} (h : Evolves s₀ s) : Evolves s₀ (setNotice tag threshold s) := by
  unfold setNotice
  dsimp only
  split
  · exact answer_evolves (evaluateNotice_evolves (h.frame ⟨rfl, rfl⟩))
  · exact answer_evolves h

theorem readRetired_evolves {tag : Byte} {offset : Nat} (h : Evolves s₀ s) : Evolves s₀ (readRetired tag offset s) := by
  unfold readRetired
  dsimp only
  split <;> exact answer_evolves h

theorem withRegion_evolves {tag : Byte} {body : List Byte} {length : Nat} {f : RegionId → State → State}
    (h : Evolves s₀ s) (hf : ∀ r, Evolves s₀ (f r s)) : Evolves s₀ (withRegion tag body length f s) := by
  unfold withRegion
  split
  · exact refuse_evolves h
  · exact hf _

theorem defineRegion_evolves {tag : Byte} {body : List Byte} {r : RegionId} (h : Evolves s₀ s) :
    Evolves s₀ (defineRegion tag body r s) := by
  unfold defineRegion
  dsimp only
  split
  · split
    · exact refuse_evolves h
    · exact answer_evolves (h.frame ⟨rfl, rfl⟩)
  · exact refuse_evolves h

theorem armRegion_evolves {tag : Byte} {r : RegionId} (h : Evolves s₀ s) : Evolves s₀ (armRegion tag r s) := by
  unfold armRegion
  dsimp only
  split
  · exact refuse_evolves h
  · split
    · exact refuse_evolves h
    · split
      · exact answer_evolves h
      · next t ht =>
        have harmed := (reserve_evolves h ht).frame (t := t.setRegion r (t.region r).armedRecord) ⟨rfl, rfl⟩
        exact answer_evolves (storeGrant_evolves (notifyCapturing_evolves harmed))

theorem triggerRegion_evolves {tag : Byte} {r : RegionId} (h : Evolves s₀ s) : Evolves s₀ (triggerRegion tag r s) := by
  unfold triggerRegion
  dsimp only
  split
  · exact answer_evolves (raiseEvent_evolves (h.frame ⟨rfl, rfl⟩))
  · split
    · exact answer_evolves h
    · exact refuse_evolves h

theorem stopRequest_evolves {tag : Byte} {r : RegionId} (h : Evolves s₀ s) : Evolves s₀ (stopRequest tag r s) := by
  unfold stopRequest
  dsimp only
  split
  · exact answer_evolves (stopRegion_evolves h)
  · split
    · exact answer_evolves h
    · exact refuse_evolves h

theorem releaseRegion_evolves {tag : Byte} {r : RegionId} (h : Evolves s₀ s) : Evolves s₀ (releaseRegion tag r s) := by
  unfold releaseRegion
  dsimp only
  split
  · exact answer_evolves h
  · split
    · exact refuse_evolves h
    · split
      · split
        · exact refuse_evolves h
        · exact (purgeRegion_evolves (r := r) h).frame ⟨rfl, rfl⟩
      · exact refuse_evolves h

/-- A new mask removes the pending entries it names (R159). -/
theorem setMask_evolves {r : RegionId} {mask : BitVec 5} (h : Evolves s₀ s) : Evolves s₀ (setMask r mask s) :=
  h.drop List.filter_sublist rfl

theorem setEventsRegion_evolves {tag : Byte} {body : List Byte} {r : RegionId} (h : Evolves s₀ s) :
    Evolves s₀ (setEventsRegion tag body r s) := by
  unfold setEventsRegion
  dsimp only
  split
  · exact answer_evolves (setMask_evolves h)
  · exact refuse_evolves h

theorem moveBinding_evolves {p : PortId} {target : Option RegionId} (h : Evolves s₀ s) :
    Evolves s₀ (moveBinding p target s) := by
  unfold moveBinding setBoundPort
  repeat' split
  all_goals exact h.frame ⟨rfl, rfl⟩

theorem bindAt_evolves {tag : Byte} {body : List Byte} (h : Evolves s₀ s) : Evolves s₀ (bindAt tag body s) := by
  unfold bindAt
  dsimp only
  split
  · split
    · exact refuse_evolves h
    · split
      · exact refuse_evolves h
      · exact answer_evolves (setPort_evolves (moveBinding_evolves h))
  · exact refuse_evolves h

theorem queryPort_evolves {tag : Byte} {body : List Byte} (h : Evolves s₀ s) : Evolves s₀ (queryPort tag body s) := by
  unfold queryPort
  split <;> exact answer_evolves h

theorem openAt_evolves {tag : Byte} {body : List Byte} (h : Evolves s₀ s) : Evolves s₀ (openAt tag body s) := by
  unfold openAt
  dsimp only
  split
  · split
    · exact answer_evolves h
    · split
      · exact answer_evolves h
      · exact answer_evolves (setWindow_evolves h)
  · exact answer_evolves h

theorem fetchAt_evolves {tag : Byte} {body : List Byte} (h : Evolves s₀ s) : Evolves s₀ (fetchAt tag body s) := by
  unfold fetchAt
  dsimp only
  split
  · exact answer_evolves h
  · split
    · exact answer_evolves h
    · exact storeGrant_evolves (fetchNext_evolves h)

theorem closeAt_evolves {tag : Byte} {body : List Byte} (h : Evolves s₀ s) : Evolves s₀ (closeAt tag body s) := by
  unfold closeAt
  dsimp only
  split
  · exact refuse_evolves h
  · split
    · exact answer_evolves h
    · exact refuse_evolves h
    · exact setWindow_evolves h
    · exact answer_evolves (storeGrant_evolves (becomeClosed_evolves h))

theorem queryWindow_evolves {tag : Byte} {body : List Byte} (h : Evolves s₀ s) : Evolves s₀ (queryWindow tag body s) := by
  unfold queryWindow
  split <;> exact answer_evolves h

/-! ### Every command -/

theorem exec_evolves (c : Instr) (s : State) : Evolved s (exec c s) := by
  cases c with
  | hardReset cause rate mode => exact execHardReset_evolves cause rate mode s
  | sweepStepComplete words => exact execSweepStepComplete_evolves words s
  | directoryClearComplete => exact execDirectoryClearComplete_evolves s
  | byteStrobe p data sor mrk => exact .next (takePortByte_evolves .refl)
  | recordWriteComplete => exact execRecordWriteComplete_evolves s
  | directoryReadComplete word => exact execDirectoryReadComplete_evolves word s
  | directoryWriteComplete word => exact execDirectoryWriteComplete_evolves word s
  | recordReadComplete words => exact execRecordReadComplete_evolves words s
  | releaseWalkStep => exact execReleaseWalkStep_evolves s
  | restartWalkBegin => exact execRestartWalkBegin_evolves s
  | restartWalkStep => exact execRestartWalkStep_evolves s
  | frameReceived data => exact receiveByte_evolves data s
  | interByteTimeout => exact execInterByteTimeout_evolves s
  | linkBreak => exact execLinkBreak_evolves s
  | transmitFrameEnd => exact execTransmitFrameEnd_evolves s
  | unknownKind kind tag body => exact execUnknownKind_evolves kind tag body s
  | identify tag body => exact serve_evolves s fun _ => answer_evolves
  | status tag body => exact serve_evolves s fun _ => answer_evolves
  | restart tag body => exact serve_evolves s fun _ => beginRestart_evolves
  | setPoolNotice tag body => exact serve_evolves s fun _ => setNotice_evolves
  | retired tag body => exact serve_evolves s fun _ => readRetired_evolves
  | define tag body => exact serve_evolves s fun _ h => withRegion_evolves h fun _ => defineRegion_evolves h
  | arm tag body => exact serve_evolves s fun _ h => withRegion_evolves h fun _ => armRegion_evolves h
  | trigger tag body => exact serve_evolves s fun _ h => withRegion_evolves h fun _ => triggerRegion_evolves h
  | stop tag body => exact serve_evolves s fun _ h => withRegion_evolves h fun _ => stopRequest_evolves h
  | release tag body => exact serve_evolves s fun _ h => withRegion_evolves h fun _ => releaseRegion_evolves h
  | query tag body => exact serve_evolves s fun _ h => withRegion_evolves h fun _ => answer_evolves h
  | setEvents tag body => exact serve_evolves s fun _ h => withRegion_evolves h fun _ => setEventsRegion_evolves h
  | bindPort tag body => exact serve_evolves s fun _ => bindAt_evolves
  | portQuery tag body => exact serve_evolves s fun _ => queryPort_evolves
  | openWindow tag body => exact serve_evolves s fun _ => openAt_evolves
  | fetch tag body => exact serve_evolves s fun _ => fetchAt_evolves
  | closeWindow tag body => exact serve_evolves s fun _ => closeAt_evolves
  | windowQuery tag body => exact serve_evolves s fun _ => queryWindow_evolves
  | characterTaken data stopBit => exact execCharacterTaken_evolves data stopBit s

/-- A step takes the command from the queue, which holds no event and no cache entry, and runs it, or idles. -/
theorem step_keeps_distinct (h : step s = .next t) :
    (s.keysDistinct → t.keysDistinct) ∧ (s.cache.distinct → t.cache.distinct) := by
  unfold step at h
  split at h
  · obtain rfl := Host.Outcome.next.inj h
    exact ⟨id, id⟩
  · next c rest _ =>
    have hexec : Evolves { s with pending := rest } t := exec_evolves c _ t h
    exact ⟨hexec.keysDistinct, hexec.distinct⟩

end Sys2Proof.Machine

open Sys2Proof Sys2Proof.Machine

/-- Settles O55: what a step does to the events and the cache keeps both invariants, and there are 91 keys (R155). -/
theorem stepsKeepKeysDistinct : Obligations.StepsKeepKeysDistinct :=
  ⟨fun _ _ h => step_keeps_distinct h, fun _ h => h.length_le⟩
end

section
/-! SUPPORT. The requests taken and not yet answered (R174, R175): where each is counted, and `State.Owes`, which says that the
outstanding count counts every accepted request once, but for those that the command in progress is about to answer. Every
operation below the commands keeps it. -/

namespace Sys2Proof.Machine

/-! ### Where a running request is counted (R175) -/

/-- What a running request adds to the outstanding count: nothing once a break has made it stale. -/
def owed (stale : Bool) : Nat := if stale then 0 else 1

/-- What a window's fetch in flight adds. -/
def Window.fetchOwed (x : Window) : Nat := x.fetch.elim 0 fun f => owed f.stale

/-- What a CLOSE that waits for a window's fetch adds. -/
def Window.closeOwed (x : Window) : Nat := x.closeTag.elim 0 fun c => owed c.stale

/-- What a RELEASE whose walk goes on adds. -/
def Scanner.releaseOwed : Scanner → Nat
  | .releaseWalk _ _ _ _ _ stale => owed stale
  | _ => 0

/-- What the RESTART being served adds. -/
def State.restartOwed (s : State) : Nat := s.restart.elim 0 fun q => owed q.stale

theorem Window.fetchOwed_none {x : Window} (h : x.fetch = none) : x.fetchOwed = 0 := by simp [Window.fetchOwed, h]

theorem Window.fetchOwed_some {x : Window} {f : Fetch} (h : x.fetch = some f) : x.fetchOwed = owed f.stale := by
  simp [Window.fetchOwed, h]

theorem Window.closeOwed_none {x : Window} (h : x.closeTag = none) : x.closeOwed = 0 := by simp [Window.closeOwed, h]

theorem Window.closeOwed_some {x : Window} {c : CloseTag} (h : x.closeTag = some c) : x.closeOwed = owed c.stale := by
  simp [Window.closeOwed, h]

theorem countP_finRange {n : Nat} (p : Fin n → Bool) : (List.finRange n).countP p = ∑ i, (p i).toNat := by
  rw [Fin.sum_univ_def]
  induction List.finRange n with
  | nil => rfl
  | cons i is ih => cases hp : p i <;> simp [hp, ih, Nat.add_comm]

theorem State.runningRequests_eq (s : State) : s.runningRequests =
    ∑ w, ((s.window w).fetchOwed + (s.window w).closeOwed) + s.alloc.scanner.releaseOwed + s.restartOwed := by
  have hfetch (w : WindowId) : (match (s.window w).fetch with | some f => !f.stale | none => false).toNat =
      (s.window w).fetchOwed := by
    cases hf : (s.window w).fetch with
    | none => simp [Window.fetchOwed, hf]
    | some f => cases hs : f.stale <;> simp [Window.fetchOwed, owed, hf, hs]
  have hclose (w : WindowId) : (match (s.window w).closeTag with | some c => !c.stale | none => false).toNat =
      (s.window w).closeOwed := by
    cases hc : (s.window w).closeTag with
    | none => simp [Window.closeOwed, hc]
    | some c => cases hs : c.stale <;> simp [Window.closeOwed, owed, hc, hs]
  have hrestart : (match s.restart with | some q => if q.stale then 0 else 1 | none => 0) = s.restartOwed := by
    cases hq : s.restart <;> simp [State.restartOwed, owed, hq]
  rw [Finset.sum_add_distrib, ← hrestart]
  simp only [← hfetch, ← hclose, ← countP_finRange]
  rfl

/-- A window changed: what it counted gives way to what it counts. -/
theorem State.runningRequests_setWindow (s : State) (w : WindowId) (x : Window) :
    (s.setWindow w x).runningRequests + ((s.window w).fetchOwed + (s.window w).closeOwed) =
      s.runningRequests + (x.fetchOwed + x.closeOwed) := by
  have hothers : ∑ v ∈ Finset.univ.erase w, (((s.setWindow w x).window v).fetchOwed + ((s.setWindow w x).window v).closeOwed) =
      ∑ v ∈ Finset.univ.erase w, ((s.window v).fetchOwed + (s.window v).closeOwed) :=
    Finset.sum_congr rfl fun v hv => by rw [State.setWindow_window, if_neg (Finset.ne_of_mem_erase hv)]
  have hrest : (s.setWindow w x).restartOwed = s.restartOwed := rfl
  rw [State.runningRequests_eq, State.runningRequests_eq, ← Finset.add_sum_erase _ _ (Finset.mem_univ w),
    ← Finset.add_sum_erase _ (fun v => (s.window v).fetchOwed + (s.window v).closeOwed) (Finset.mem_univ w), hothers, hrest]
  simp
  omega

/-! ### The accounts -/

/-- The outstanding count is that of the queued requests, the queued replies and `n` more, and at most 8. -/
structure Link.Owes (l : Link) (n : Nat) : Prop where
  count : l.outstanding = l.requests.length + l.replies.length + n
  limit : l.outstanding ≤ 8

/-- The accounts of `State.outstandingAccounts` hold but for `n` requests that have been taken, are not stale and are neither
running nor answered. -/
structure State.Owes (s : State) (n : Nat) : Prop where
  coherent : ∀ w, (s.window w).coherent
  engine : s.link.engine = .running → s.restart = none
  link : s.link.Owes (s.runningRequests + n)

theorem State.outstandingAccounts_iff (s : State) : s.outstandingAccounts ↔ s.Owes 0 :=
  ⟨fun ⟨hcoherent, hengine, hcount, hlimit⟩ => ⟨hcoherent, hengine, hcount, hlimit⟩,
    fun ⟨hcoherent, hengine, hcount, hlimit⟩ => ⟨hcoherent, hengine, hcount, hlimit⟩⟩

variable {s t : State} {n m : Nat}

/-- An operation that touches of the accounts only the queues of the link. -/
theorem State.Owes.follow (h : s.Owes n) (hlink : ∀ k, s.link.Owes k → t.link.Owes k)
    (e : t.link.engine = s.link.engine ∧ t.restart = s.restart ∧ t.alloc.scanner = s.alloc.scanner ∧ t.windows = s.windows) :
    t.Owes n := by
  obtain ⟨hengine, hrestart, hscanner, hwindows⟩ := e
  have hwindow (w : WindowId) : t.window w = s.window w := by rw [State.window, hwindows, State.windows_get]
  have hrunning : t.runningRequests = s.runningRequests := by
    simp only [State.runningRequests_eq, State.restartOwed, hwindow, hscanner, hrestart]
  refine ⟨fun w => hwindow w ▸ h.coherent w, fun hr => ?_, ?_⟩
  · rw [hrestart]
    exact h.engine (hengine ▸ hr)
  · rw [hrunning]
    exact hlink _ h.link

/-- An operation on the other blocks. -/
theorem State.Owes.frame (h : s.Owes n)
    (e : t.link = s.link ∧ t.restart = s.restart ∧ t.alloc.scanner = s.alloc.scanner ∧ t.windows = s.windows) : t.Owes n := by
  obtain ⟨hlink, hblocks⟩ := e
  exact h.follow (fun _ => hlink ▸ id) ⟨congrArg Link.engine hlink, hblocks⟩

/-- A window changed, with `n` requests owed before and `m` after. -/
theorem State.Owes.setWindow {w : WindowId} {x : Window} (h : s.Owes n) (hx : x.coherent)
    (hm : x.fetchOwed + x.closeOwed + m = (s.window w).fetchOwed + (s.window w).closeOwed + n) : (s.setWindow w x).Owes m := by
  have hrunning := s.runningRequests_setWindow w x
  have hsum : (s.setWindow w x).runningRequests + m = s.runningRequests + n := by omega
  refine ⟨fun v => ?_, h.engine, ?_⟩
  · rw [State.setWindow_window]
    split
    · exact hx
    · exact h.coherent v
  · rw [hsum]
    exact h.link

/-- The allocator changed, with `n` requests owed before and `m` after. -/
theorem State.Owes.setAlloc {a : Allocator} (h : s.Owes n)
    (hm : a.scanner.releaseOwed + m = s.alloc.scanner.releaseOwed + n) : (s.setAlloc a).Owes m := by
  have hsum : (s.setAlloc a).runningRequests + m = s.runningRequests + n := by
    have hrest : (s.setAlloc a).restartOwed = s.restartOwed := rfl
    simp only [State.runningRequests_eq, State.setAlloc_window, State.setAlloc_alloc, hrest]
    omega
  refine ⟨h.coherent, h.engine, ?_⟩
  rw [hsum]
  exact h.link

/-! ### Raises and replies -/

/-- The start of a reply frame takes the reply from its queue and its request from the count (R177). -/
theorem arbitrate_link_owes {k : Nat} (h : s.link.Owes k) : (arbitrate s).link.Owes k := by
  have hreply {r : Reply} {rs : List Reply} (hr : s.link.replies = r :: rs) : (startReply r rs s).link.Owes k := by
    obtain ⟨hcount, hlimit⟩ := h
    rw [hr, List.length_cons] at hcount
    exact ⟨show s.link.outstanding - 1 = s.link.requests.length + rs.length + k by omega,
      show s.link.outstanding - 1 ≤ 8 by omega⟩
  have hevent (e : EventEntry) (es : List EventEntry) : (startEvent e es s).link.Owes k := ⟨h.count, h.limit⟩
  unfold arbitrate
  split
  · exact h
  · split
    · exact h
    · exact hevent _ _
    · next hr _ => exact hreply hr
    · next hr _ =>
      split
      · exact hreply hr
      · exact hevent _ _

theorem arbitrate_owes (h : s.Owes n) : (arbitrate s).Owes n := h.follow (fun _ => arbitrate_link_owes) (by simp)

theorem raiseEvent_owes {key : EventKey} {payload : Payload} (h : s.Owes n) : (raiseEvent key payload s).Owes n := by
  unfold raiseEvent
  split
  · exact h
  · exact arbitrate_owes (h.frame ⟨rfl, rfl, rfl, rfl⟩)

section
variable {tag : Byte} {stale : Bool} {status : Status} {body : List Byte}

/-- A reply made joins the reply queue, unless its request is stale and no longer counted (R175, R176). -/
theorem makeReply_link_owes {k : Nat} (h : s.link.Owes (k + owed stale)) : (makeReply tag stale status body s).link.Owes k := by
  obtain ⟨hcount, hlimit⟩ := h
  unfold makeReply
  cases stale with
  | true => exact ⟨hcount, hlimit⟩
  | false =>
    refine arbitrate_link_owes (s := s.setLink _) ⟨?_, hlimit⟩
    simp only [owed, Bool.false_eq_true, if_false] at hcount
    simp only [State.setLink_link, List.length_append, List.length_singleton]
    omega

theorem makeReply_owes (h : s.Owes (n + owed stale)) : (makeReply tag stale status body s).Owes n := by
  have hrunning : (makeReply tag stale status body s).runningRequests = s.runningRequests := by
    simp [State.runningRequests_eq, State.restartOwed]
  refine ⟨fun w => ?_, fun hr => ?_, ?_⟩
  · simpa using h.coherent w
  · simpa using h.engine (by simpa using hr)
  · rw [hrunning]
    exact makeReply_link_owes (Nat.add_assoc _ _ _ ▸ h.link)

/-- A reply made for a request that a window counts, and the window changed. -/
theorem makeReply_setWindow_owes {w : WindowId} {x : Window} (h : s.Owes n) (hx : x.coherent)
    (hm : x.fetchOwed + x.closeOwed + m + owed stale = (s.window w).fetchOwed + (s.window w).closeOwed + n) :
    ((makeReply tag stale status body s).setWindow w x).Owes m := by
  have hcounted : (s.setWindow w x).Owes (m + owed stale) := h.setWindow hx (by omega)
  have hrunning : ((makeReply tag stale status body s).setWindow w x).runningRequests = (s.setWindow w x).runningRequests := by
    simp [State.runningRequests_eq, State.restartOwed]
  refine ⟨fun v => ?_, fun hr => ?_, ?_⟩
  · simpa using hcounted.coherent v
  · simpa using h.engine (by simpa using hr)
  · rw [hrunning]
    exact makeReply_link_owes (s := s) (Nat.add_assoc _ _ _ ▸ hcounted.link)

theorem answer_owes (h : s.Owes 1) : (answer tag status body s).Owes 0 := makeReply_owes h

end

theorem evaluateNotice_owes (h : s.Owes n) : (evaluateNotice s).Owes n := by
  unfold evaluateNotice
  split
  · exact h
  · split
    · split
      · exact raiseEvent_owes (h.frame ⟨rfl, rfl, rfl, rfl⟩)
      · exact h
    · split
      · exact h.frame ⟨rfl, rfl, rfl, rfl⟩
      · exact h

/-! ### Reservations and claims -/

theorem reserve_owes {r : RegionId} {k : Nat} (h : s.Owes n) (ht : reserve r k s = some t) : t.Owes n := by
  obtain ⟨-, rfl⟩ := reserve_some ht
  exact evaluateNotice_owes (h.frame ⟨rfl, rfl, rfl, rfl⟩)

theorem claimPage_owes {r : RegionId} {page : Nat} (h : s.Owes n) (ht : claimPage r s = some (page, t)) : t.Owes n := by
  obtain ⟨rest, -, ⟨-, rfl⟩ | ⟨-, -, rfl⟩⟩ := claimPage_some ht
  all_goals exact evaluateNotice_owes (h.frame ⟨rfl, rfl, rfl, rfl⟩)

theorem returnReservation_owes {r : RegionId} (h : s.Owes n) : (returnReservation r s).Owes n := by
  unfold returnReservation
  split
  · exact h
  · exact evaluateNotice_owes (h.frame ⟨rfl, rfl, rfl, rfl⟩)

/-! ### The store, the slot cache and the writers -/

theorem setPort_owes {p : PortId} {q : Port} (h : s.Owes n) : (s.setPort p q).Owes n := h.frame ⟨rfl, rfl, rfl, rfl⟩

theorem storeGrant_owes (h : s.Owes n) : (storeGrant s).Owes n := h.frame ⟨rfl, rfl, rfl, rfl⟩

theorem lookupSlot_owes {r : RegionId} {slot : Nat} {who : Requester} (h : s.Owes n) : (lookupSlot r slot who s).2.Owes n :=
  h.frame (by simp)

theorem markerReport_owes {r : RegionId} {k : Nat} (h : s.Owes n) : (markerReport r k s).Owes n := by
  unfold markerReport
  split
  · exact raiseEvent_owes (h.frame ⟨rfl, rfl, rfl, rfl⟩)
  · exact h

theorem issueRecordWrite_owes {p : PortId} {r : RegionId} {page : Nat} (h : s.Owes n) :
    (issueRecordWrite p r page s).Owes n := by
  unfold issueRecordWrite
  split
  · exact h
  · dsimp only
    split
    · exact markerReport_owes (h.frame ⟨rfl, rfl, rfl, rfl⟩)
    · exact h.frame ⟨rfl, rfl, rfl, rfl⟩

theorem claimEnds_owes {p : PortId} {r : RegionId} {l page : Nat} (h : s.Owes n) : (claimEnds p r l page s).Owes n :=
  issueRecordWrite_owes (setPort_owes h)

/-- A broken pin belongs to a window that is not CLOSED (R137), whose record stays coherent. -/
theorem breakPin_owes {r : RegionId} {l : Nat} {w : WindowId} (h : s.Owes n) (hw : (s.window w).state ≠ .closed) :
    (breakPin r l s w).Owes n := by
  obtain ⟨-, hopened, hclosing, hcursor, hfetch⟩ := h.coherent w
  exact raiseEvent_owes (h.setWindow ⟨fun hc => absurd hc hw, hopened, hclosing, hcursor, hfetch⟩ rfl)

theorem breakPins_owes {r : RegionId} {l : Nat} (ws : List WindowId) (h : s.Owes n)
    (hws : ∀ w ∈ ws, (s.window w).state ≠ .closed) : (ws.foldl (breakPin r l) s).Owes n := by
  induction ws generalizing s with
  | nil => exact h
  | cons w ws ih =>
    obtain ⟨hw, hrest⟩ := List.forall_mem_cons.1 hws
    refine ih (breakPin_owes h hw) fun v hv => ?_
    rw [breakPin_window]
    split
    · exact hw
    · exact hrest v hv

theorem coveringWindows_not_closed {r : RegionId} {l : Nat} {w : WindowId} (h : w ∈ coveringWindows r l s) :
    (s.window w).state ≠ .closed := by
  simp only [coveringWindows, Window.covers, List.mem_filter, Bool.and_eq_true, bne_iff_ne] at h
  tauto

theorem pinCheck_owes {r : RegionId} {l : Nat} (h : s.Owes n) : (pinCheck r l s).2.Owes n := by
  unfold pinCheck
  split
  · split
    · exact h.frame ⟨rfl, rfl, rfl, rfl⟩
    · next w ws hws =>
      split
      · exact h
      · have hbroken : ((w :: ws).foldl (breakPin r l) s).Owes n :=
          breakPins_owes (w :: ws) h fun v hv => coveringWindows_not_closed (hws ▸ hv)
        exact hbroken.frame ⟨rfl, rfl, rfl, rfl⟩
  · exact h

theorem recycleStep_owes {p : PortId} {r : RegionId} {l : Nat} {rc : Recycle} {page : Nat} (h : s.Owes n) :
    (recycleStep p r l rc page s).Owes n := by
  have hcheck : (pinCheck r rc.oldPage s).2.Owes n := pinCheck_owes h
  unfold recycleStep
  dsimp only
  split
  · exact claimEnds_owes hcheck
  · exact raiseEvent_owes (setPort_owes hcheck)
  · exact hcheck

theorem recycleLookup_owes {p : PortId} {r : RegionId} {l : Nat} (h : s.Owes n) : (recycleLookup p r l s).Owes n := by
  unfold recycleLookup
  dsimp only
  split
  · exact recycleStep_owes (lookupSlot_owes h)
  · exact setPort_owes (lookupSlot_owes h)

theorem wrapThenRecycle_owes {p : PortId} {r : RegionId} {l : Nat} (h : s.Owes n) : (wrapThenRecycle p r l s).Owes n :=
  recycleLookup_owes (h.frame ⟨rfl, rfl, rfl, rfl⟩)

theorem freshPage_owes {p : PortId} {r : RegionId} {l page : Nat} (h : s.Owes n) : (freshPage p r l page s).Owes n :=
  setPort_owes (h.frame (by simp))

theorem pageClaim_owes {p : PortId} {r : RegionId} {l : Nat} (h : s.Owes n) : (pageClaim p r l s).Owes n := by
  unfold pageClaim
  dsimp only
  split
  · split
    · next hc => exact freshPage_owes (claimPage_owes h hc)
    · exact wrapThenRecycle_owes h
  · exact wrapThenRecycle_owes h

theorem takeHead_owes {p : PortId} (h : s.Owes n) : (takeHead p s).Owes n := by
  unfold takeHead
  dsimp only
  split
  · exact h
  · split
    · split
      · exact pageClaim_owes h
      · split
        · exact issueRecordWrite_owes h
        · exact h
    · exact h

theorem notifyCapturing_owes {r : RegionId} (h : s.Owes n) : (notifyCapturing r s).Owes n := by
  unfold notifyCapturing
  split
  · exact takeHead_owes (setPort_owes h)
  · exact h

theorem pinEndNotice_owes {r : RegionId} (h : s.Owes n) : (pinEndNotice r s).Owes n := by
  unfold pinEndNotice
  split
  · exact h
  · split
    · exact recycleStep_owes h
    · exact h

/-! ### Completions, stops and faults (chapters 3 and 8) -/

theorem stopRegionWriter_owes {r : RegionId} (h : s.Owes n) : (stopRegionWriter r s).Owes n := by
  unfold stopRegionWriter
  split
  · exact setPort_owes h
  · exact h

theorem stopRegion_owes {r : RegionId} {cause : StopCause} (h : s.Owes n) : (stopRegion r cause s).Owes n :=
  raiseEvent_owes (stopRegionWriter_owes (returnReservation_owes (h.frame ⟨rfl, rfl, rfl, rfl⟩)))

theorem markCheck_owes {r : RegionId} (h : s.Owes n) : (markCheck r s).Owes n := by
  unfold markCheck
  dsimp only
  split
  · exact raiseEvent_owes h
  · exact h

theorem stopChecks_owes {r : RegionId} (h : s.Owes n) : (stopChecks r s).Owes n := by
  unfold stopChecks
  dsimp only
  split
  · exact stopRegion_owes h
  · split
    · exact stopRegion_owes h
    · exact h

theorem completionReport_owes {r : RegionId} (h : s.Owes n) : (completionReport r s).Owes n := by
  unfold completionReport
  dsimp only
  split
  · exact stopChecks_owes (markCheck_owes (h.frame ⟨rfl, rfl, rfl, rfl⟩))
  · split
    · exact raiseEvent_owes (h.frame ⟨rfl, rfl, rfl, rfl⟩)
    · exact h

/-- The windows all changed, each to a coherent record that counts as many requests. -/
theorem State.Owes.mapWindows {f : Window → Window} (h : s.Owes n) (hcoherent : ∀ x, x.coherent → (f x).coherent)
    (howed : ∀ x, (f x).fetchOwed = x.fetchOwed ∧ (f x).closeOwed = x.closeOwed) :
    (s.setWindows (s.windows.map f)).Owes n := by
  have hwindow (w : WindowId) : (s.setWindows (s.windows.map f)).window w = f (s.window w) := vector_get_map f s.windows w
  have hrunning : (s.setWindows (s.windows.map f)).runningRequests = s.runningRequests := by
    simp only [State.runningRequests_eq, hwindow, howed]
    rfl
  refine ⟨fun w => ?_, h.engine, ?_⟩
  · rw [hwindow]
    exact hcoherent _ (h.coherent w)
  · rw [hrunning]
    exact h.link

/-- The fetch of a coherent window given another end cause or stage. -/
theorem Window.coherent.refetch {x : Window} {f g : Fetch} (h : x.coherent) (hf : x.fetch = some f) (hg : g.gathered = f.gathered)
    (ht : g.total = f.total) : ({ x with fetch := some g } : Window).coherent := by
  obtain ⟨hclosed, hopened, hclosing, hcursor, hfetch⟩ := h
  refine ⟨fun hc => ?_, hopened, fun hc => ⟨rfl, (hclosing hc).2⟩, hcursor, ?_⟩
  · exact absurd (hf.symm.trans (hclosed hc).2.1) nofun
  · rintro _ ⟨⟩
    simpa only [hg, ht] using hfetch f hf

theorem Window.faultNotice_coherent {x : Window} (r : RegionId) (h : x.coherent) : (x.faultNotice r).coherent := by
  unfold Window.faultNotice
  split
  · next f hf =>
    split
    · exact h.refetch hf rfl rfl
    · exact h
  · exact h

theorem Window.faultNotice_owed (r : RegionId) (x : Window) :
    (x.faultNotice r).fetchOwed = x.fetchOwed ∧ (x.faultNotice r).closeOwed = x.closeOwed := by
  refine ⟨?_, by simp [Window.closeOwed]⟩
  unfold Window.faultNotice
  split
  · next f hf =>
    split
    · simp [Window.fetchOwed, hf]
    · rfl
  · rfl

theorem faultReport_owes {r : RegionId} (h : s.Owes n) : (faultReport r s).Owes n := by
  unfold faultReport
  dsimp only
  split
  · have hleft := h.frame (t := s.setRegion r ((s.region r).faulted r)) ⟨rfl, rfl, rfl, rfl⟩
    have hpurged (c : Cache) : ((returnReservation r (s.setRegion r ((s.region r).faulted r))).setCache c).Owes n :=
      (returnReservation_owes hleft).frame ⟨rfl, rfl, rfl, rfl⟩
    refine raiseEvent_owes (raiseEvent_owes ?_)
    exact (stopRegionWriter_owes (hpurged _)).mapWindows (fun _ => Window.faultNotice_coherent r) (Window.faultNotice_owed r)
  · split
    · exact raiseEvent_owes h
    · exact h

/-! ### The fetch engine (chapter 7) -/

/-- A window CLOSED, with nothing of its own left. -/
def Window.shut (x : Window) : Window := { x with state := .closed, pin := .none, closeTag := none }

theorem Window.shut_coherent {x : Window} (h : x.fetch = none) : x.shut.coherent :=
  ⟨fun _ => ⟨rfl, h, rfl⟩, fun _ => rfl, nofun, fun hc => absurd rfl hc, fun _ hf => nomatch h.symm.trans hf⟩

theorem becomeClosed_owes {w : WindowId} (h : (s.setWindow w (s.window w).shut).Owes n) : (becomeClosed w s).Owes n := by
  unfold becomeClosed
  dsimp only
  split
  · exact pinEndNotice_owes h
  · exact h

/-- The waiting CLOSE is answered as its window closes (R135). -/
theorem closeAfterFetch_owes {w : WindowId} (h : (s.setWindow w (s.window w).shut).Owes (n + (s.window w).closeOwed)) :
    (closeAfterFetch w s).Owes n := by
  cases hc : (s.window w).closeTag with
  | none =>
    rw [Window.closeOwed_none hc] at h
    rw [closeAfterFetch_quiet hc]
    exact becomeClosed_owes h
  | some c =>
    rw [Window.closeOwed_some hc] at h
    rw [closeAfterFetch_answers hc]
    exact makeReply_owes (becomeClosed_owes h)

/-- The end of a fetch answers its request (R131), and that of a waiting CLOSE where the window closes with it. -/
theorem fetchEnd_owes {w : WindowId} {f : Fetch} {status : Status} {records : List (List Byte)} (h : s.Owes n)
    (hf : (s.window w).fetch = some f) (hrecords : records.length ≤ f.gathered.length + 1) :
    (fetchEnd w f status records s).Owes n := by
  have howed := Window.fetchOwed_some hf
  by_cases hcloses : (s.window w).state = .closing ∨ s.device = .restarting
  · rw [fetchEnd_closes hcloses]
    refine closeAfterFetch_owes ?_
    rw [fetchEnded_window, fetchEnded, State.setWindow_setWindow]
    refine makeReply_setWindow_owes h (Window.shut_coherent rfl) ?_
    simp only [Window.shut, Window.fetchOwed, Window.closeOwed, Option.elim_none, hf, Option.elim_some]
    omega
  · rw [fetchEnd_stays hcloses]
    obtain ⟨hclosed, hopened, -, hcursor, hfetch⟩ := h.coherent w
    obtain ⟨hroom, -, -⟩ := hfetch f hf
    refine makeReply_setWindow_owes h ⟨fun hc => ?_, hopened, fun hc => absurd (.inl hc) hcloses, fun hc => ?_, nofun⟩ ?_
    · exact absurd (hf.symm.trans (hclosed hc).2.1) nofun
    · obtain ⟨hfirst, -⟩ := hcursor hc
      dsimp only
      omega
    · simp only [Window.fetchOwed, Window.closeOwed, Option.elim_none, hf, Option.elim_some]
      omega

theorem fetchEndByCause_owes {w : WindowId} {f : Fetch} {cause : EndCause} (h : s.Owes n) (hf : (s.window w).fetch = some f) :
    (fetchEndByCause w f cause s).Owes n := by
  cases cause with
  | fault => exact fetchEnd_owes h hf (Nat.le_succ _)
  | close => exact fetchEnd_owes h hf (Nat.zero_le _)
  | restart => exact fetchEnd_owes h hf (Nat.zero_le _)

/-- The fetch put in a window, at whatever stage. -/
theorem restage_owes {w : WindowId} {x : Window} {f : Fetch} (stage : FetchStage)
    (h : (s.setWindow w { x with fetch := some f }).Owes n) :
    (s.setWindow w { x with fetch := some { f with stage := stage } }).Owes n := by
  have hcoherent := h.coherent w
  rw [State.setWindow_window, if_pos rfl] at hcoherent
  have hset := h.setWindow (w := w) (m := n) (hcoherent.refetch (g := { f with stage := stage }) rfl rfl rfl)
    (by rw [State.setWindow_window, if_pos rfl]; rfl)
  rwa [State.setWindow_setWindow] at hset

theorem fetchRead_owes {w : WindowId} {f : Fetch} {page : Nat} (h : (s.setWindow w { s.window w with fetch := some f }).Owes n) :
    (fetchRead w f page s).Owes n :=
  (restage_owes .read h).frame ⟨rfl, rfl, rfl, rfl⟩

theorem fetchNext_owes {w : WindowId} {f : Fetch} (h : (s.setWindow w { s.window w with fetch := some f }).Owes n) :
    (fetchNext w f s).Owes n := by
  have hfound (who : Requester) (r : RegionId) (slot : Nat) : ((lookupSlot r slot who s).2.setWindow w
      { (lookupSlot r slot who s).2.window w with fetch := some f }).Owes n :=
    h.frame (by simp [State.setWindow])
  unfold fetchNext
  dsimp only
  split
  · exact fetchRead_owes (hfound _ _ _)
  · exact restage_owes .lookup (hfound _ _ _)

theorem fetchAnswer_owes {w : WindowId} {page : Option Nat} (h : s.Owes n) : (fetchAnswer w page s).Owes n := by
  unfold fetchAnswer
  split
  · exact h
  · next f hf =>
    split
    · exact fetchEndByCause_owes h hf
    · refine fetchRead_owes ?_
      rwa [← hf, State.setWindow_self]
    · exact fetchEndByCause_owes h hf

/-- The record read joins the gathered ones, which stay within the fetch's total (R127, R128). -/
theorem fetchRecord_owes {w : WindowId} {f : Fetch} {bytes : List Byte} (h : s.Owes n) (hf : (s.window w).fetch = some f) :
    (fetchRecord w f bytes s).Owes n := by
  unfold fetchRecord
  dsimp only
  split
  · exact fetchEnd_owes h hf (Nat.le_succ _)
  · split
    · exact fetchEnd_owes h hf (by simp)
    · next hshort =>
      obtain ⟨hclosed, hopened, hclosing, hcursor, hfetch⟩ := h.coherent w
      obtain ⟨-, -, htotal⟩ := hfetch f hf
      rw [List.length_append, List.length_singleton] at hshort
      refine fetchNext_owes (h.setWindow ⟨fun hc => ?_, hopened, fun hc => ⟨rfl, (hclosing hc).2⟩, hcursor, ?_⟩ ?_)
      · exact absurd (hf.symm.trans (hclosed hc).2.1) nofun
      · rintro _ ⟨⟩
        simp only [List.length_append, List.length_singleton]
        omega
      · simp only [Window.fetchOwed, Window.closeOwed, hf, Option.elim_some]

theorem restartWindow_owes {w : WindowId} (h : s.Owes n) : (restartWindow s w).Owes n := by
  unfold restartWindow
  dsimp only
  split
  · next f hf => exact h.setWindow ((h.coherent w).refetch hf rfl rfl) (by simp [Window.fetchOwed, Window.closeOwed, hf])
  · next hf =>
    split
    · next hopened =>
      have hquiet := (h.coherent w).2.1 hopened
      refine becomeClosed_owes (h.setWindow (Window.shut_coherent hf) ?_)
      simp [Window.shut, Window.fetchOwed, Window.closeOwed, hf, hquiet]
    · exact h

end Sys2Proof.Machine
end

section
/-! SUPPORT. Every command answers the request it takes, or leaves it counted where it runs on: `exec_answered`. -/

namespace Sys2Proof.Machine

variable {s t : State} {n : Nat}

/-- The state that a command comes to, if it comes to one, has its accounts in order. -/
def Answered (o : Result) : Prop := ∀ t, o = .next t → t.Owes 0

theorem Answered.next (h : s.Owes 0) : Answered (.next s) := by
  rintro _ ⟨⟩
  exact h

theorem Answered.inStore {op : StoreOp} {o : Result} (h : Answered o) :
    Answered (if op.inStore then o else .fault .outsideStore) := by
  split
  · exact h
  · rintro _ ⟨⟩

/-! ### HARD_RESET and initialization (1.5, 1.6) -/

/-- A hard reset empties the link's queues, the windows, the scanner and the restart (R190). -/
theorem execHardReset_answered (cause : ResetCause) (rate : BitVec 2) (mode : InitMode) (s : State) :
    Answered (execHardReset cause rate mode s) := by
  have hreset : State.reset.Owes 0 := (State.outstandingAccounts_iff _).1 State.reset_outstandingAccounts
  exact .next (hreset.follow (fun _ hk => ⟨hk.count, hk.limit⟩) ⟨rfl, rfl, rfl, rfl⟩)

theorem completeInitialization_owes (h : s.Owes n) : (completeInitialization s).Owes n :=
  evaluateNotice_owes (raiseEvent_owes (h.frame ⟨rfl, rfl, rfl, rfl⟩))

theorem reportSwept_owes {page : Nat} {good : Bool} (h : s.Owes n) : (reportSwept page good s).Owes n := by
  unfold reportSwept
  split
  · exact h.frame ⟨rfl, rfl, rfl, rfl⟩
  · split
    · exact h
    · exact h.frame (by simp [retirePage_scanner])

theorem sweepAdvance_owes {page : Nat} (h : s.Owes n) : (sweepAdvance page s).Owes n := by
  unfold sweepAdvance
  split
  · exact h.frame ⟨rfl, rfl, rfl, rfl⟩
  · exact completeInitialization_owes h

theorem execSweepStepComplete_answered (words : List (Nat × WordRead)) (h : s.Owes 0) :
    Answered (execSweepStepComplete words s) := by
  unfold execSweepStepComplete
  split
  · exact .inStore (.next (sweepAdvance_owes (reportSwept_owes (h.frame ⟨rfl, rfl, rfl, rfl⟩))))
  · exact .next h

theorem execDirectoryClearComplete_answered (h : s.Owes 0) : Answered (execDirectoryClearComplete s) := by
  unfold execDirectoryClearComplete
  split
  · refine .inStore ?_
    dsimp only
    split
    · exact .next (h.frame ⟨rfl, rfl, rfl, rfl⟩)
    · exact .next (completeInitialization_owes (h.frame ⟨rfl, rfl, rfl, rfl⟩))
  · exact .next h

/-! ### Records at a capture port (6.1, 6.2) -/

theorem dropFull_owes {p : PortId} (h : s.Owes n) : (dropFull p s).Owes n := by
  unfold dropFull
  dsimp only
  split
  · exact raiseEvent_owes (setPort_owes h)
  · exact setPort_owes h

theorem stageRecord_owes {p : PortId} {record : StagedRecord} (h : s.Owes n) : (stageRecord p record s).Owes n := by
  unfold stageRecord
  dsimp only
  split
  · exact storeGrant_owes (takeHead_owes (setPort_owes h))
  · exact setPort_owes h

theorem recordArrives_owes {p : PortId} {r : RegionId} {record : StagedRecord} {size : Nat} (h : s.Owes n) :
    (recordArrives p r record size s).Owes n := by
  unfold recordArrives
  dsimp only
  split
  · exact setPort_owes h
  · split
    · exact dropFull_owes h
    · exact stageRecord_owes h

theorem takePortByte_owes {p : PortId} {data : Byte} {sor mrk : Bool} (h : s.Owes n) :
    (takePortByte p data sor mrk s).Owes n := by
  unfold takePortByte
  split
  · split
    · exact setPort_owes h
    · exact h
  · split
    · split
      · exact setPort_owes h
      · exact h
    · split
      · exact setPort_owes (setPort_owes h)
      · split
        · exact recordArrives_owes (setPort_owes h)
        · exact setPort_owes h

/-! ### Completions of store operations -/

theorem execRecordWriteComplete_answered (h : s.Owes 0) : Answered (execRecordWriteComplete s) := by
  unfold execRecordWriteComplete
  split
  · exact .inStore (.next (storeGrant_owes (takeHead_owes (completionReport_owes (h.frame ⟨rfl, rfl, rfl, rfl⟩)))))
  · exact .next h

theorem answerRequester_owes {r : RegionId} {page : Option Nat} {who : Requester} (h : s.Owes n) :
    (answerRequester r page who s).Owes n := by
  cases who with
  | writer p =>
    unfold answerRequester writerAnswer
    dsimp only
    split
    · exact recycleStep_owes h
    · exact setPort_owes h
  | window w => exact fetchAnswer_owes h

theorem fillCompletes_owes {r : RegionId} {slot : Nat} {who : Requester} {page : Option Nat} (h : s.Owes n) :
    (fillCompletes r slot who page s).Owes n := by
  cases page with
  | some v => exact answerRequester_owes (h.frame (by simp))
  | none => exact answerRequester_owes (faultReport_owes h)

theorem execDirectoryReadComplete_answered (word : WordRead) (h : s.Owes 0) :
    Answered (execDirectoryReadComplete word s) := by
  unfold execDirectoryReadComplete
  split
  · exact .inStore (.next (storeGrant_owes (fillCompletes_owes (h.frame ⟨rfl, rfl, rfl, rfl⟩))))
  · exact .next h

theorem directoryWritten_owes {p : PortId} {r : RegionId} {page : Nat} (h : s.Owes n) :
    (directoryWritten p r page s).Owes n := by
  unfold directoryWritten
  split
  · exact claimEnds_owes h
  · exact setPort_owes h

theorem execDirectoryWriteComplete_answered (word : WordRead) (h : s.Owes 0) :
    Answered (execDirectoryWriteComplete word s) := by
  unfold execDirectoryWriteComplete
  split
  · refine .inStore ?_
    dsimp only
    split
    · exact .next (storeGrant_owes (directoryWritten_owes (h.frame ⟨rfl, rfl, rfl, rfl⟩)))
    · exact .next (storeGrant_owes (faultReport_owes (h.frame ⟨rfl, rfl, rfl, rfl⟩)))
  · exact .next h

theorem markSuspect_scanner (page : Nat) (s : State) : (markSuspect page s).alloc.scanner = s.alloc.scanner := by
  unfold markSuspect
  split <;> rfl

theorem recordError_owes {w : WindowId} {page k : Nat} (h : s.Owes n) : (recordError w page k s).Owes n :=
  raiseEvent_owes (h.frame (by simp [markSuspect_scanner]))

theorem recordError_window (w v : WindowId) (page k : Nat) (s : State) :
    (recordError w page k s).window v = s.window v := by simp [recordError]

theorem recordReadTaken_owes {w : WindowId} {op : RecordRead} {uncorrectable : Bool} {bytes : List Byte} (h : s.Owes n) :
    (recordReadTaken w op uncorrectable bytes s).Owes n := by
  unfold recordReadTaken
  split
  · exact h
  · next f hf =>
    cases uncorrectable with
    | true =>
      have hbad : (recordError w op.page f.current s).Owes n := recordError_owes h
      have hfbad := (congrArg Window.fetch (recordError_window w w op.page f.current s)).trans hf
      dsimp only
      split
      · exact fetchEndByCause_owes hbad hfbad
      · exact fetchEnd_owes hbad hfbad (Nat.le_succ _)
    | false =>
      dsimp only
      split
      · exact fetchEndByCause_owes h hf
      · exact fetchRecord_owes h hf

theorem execRecordReadComplete_answered (words : List (Nat × WordOutcome)) (h : s.Owes 0) :
    Answered (execRecordReadComplete words s) := by
  unfold execRecordReadComplete
  split
  · exact .inStore (.next (storeGrant_owes (recordReadTaken_owes (h.frame ⟨rfl, rfl, rfl, rfl⟩))))
  · exact .next h

/-! ### The walks (2.8, 12.3) -/

/-- The RELEASE that a walk serves is answered as the scanner becomes IDLE (R32). -/
theorem releaseWalkEnds_owes {r : RegionId} {page k m returned retired : Nat} {tag : Byte} {stale : Bool} (h : s.Owes n)
    (hs : s.alloc.scanner = .releaseWalk r page k m tag stale) : (releaseWalkEnds r returned retired tag stale s).Owes n := by
  have hidle : ((s.setRegion r { s.region r with state := .idle }).setAlloc { s.alloc with scanner := .idle }).Owes
      (n + owed stale) := (h.frame (t := s.setRegion r _) ⟨rfl, rfl, rfl, rfl⟩).setAlloc
    (by simp [hs, Scanner.releaseOwed, Nat.add_comm])
  have hrunning : (releaseWalkEnds r returned retired tag stale s).runningRequests =
      ((s.setRegion r { s.region r with state := .idle }).setAlloc { s.alloc with scanner := .idle }).runningRequests := by
    simp [releaseWalkEnds, State.runningRequests_eq, State.restartOwed]
  refine ⟨fun w => ?_, fun hr => ?_, ?_⟩
  · simpa [releaseWalkEnds] using h.coherent w
  · simpa [releaseWalkEnds] using h.engine (by simpa [releaseWalkEnds] using hr)
  · rw [hrunning]
    exact makeReply_link_owes (s := s.setRegion r _) (Nat.add_assoc _ _ _ ▸ hidle.link)

theorem releaseAdvance_owes {r : RegionId} {page k m returned retired : Nat} {tag : Byte} {stale : Bool} (h : s.Owes n)
    (hs : s.alloc.scanner = .releaseWalk r page k m tag stale) : (releaseAdvance r page returned retired tag stale s).Owes n := by
  unfold releaseAdvance
  split
  · exact h.setAlloc (by simp [hs, Scanner.releaseOwed])
  · exact releaseWalkEnds_owes h hs

theorem execReleaseWalkStep_answered (h : s.Owes 0) : Answered (execReleaseWalkStep s) := by
  unfold execReleaseWalkStep
  split
  · next r page returned retired tag stale hs =>
    have hretired : (retireOwned r page .release s).alloc.scanner = s.alloc.scanner := by simp
    have hreturned : (evaluateNotice (returnPage r page s)).alloc.scanner = s.alloc.scanner := by simp
    split
    · split
      · split
        · exact .next (releaseAdvance_owes (h.frame (by simp)) (hretired.trans hs))
        · exact .next (releaseAdvance_owes (evaluateNotice_owes (h.frame (by simp))) (hreturned.trans hs))
      · exact .next (releaseAdvance_owes h hs)
    · exact .next (releaseAdvance_owes h hs)
  · exact .next h

theorem execRestartWalkBegin_answered (h : s.Owes 0) : Answered (execRestartWalkBegin s) := by
  unfold execRestartWalkBegin
  split
  · next hbegins =>
    obtain ⟨-, hidle, -⟩ := hbegins
    have hwalks : (s.setAlloc { s.alloc with scanner := .restartWalk Config.directoryPages }).Owes 0 :=
      h.setAlloc (by simp [hidle, Scanner.releaseOwed])
    exact .next (hwalks.frame ⟨rfl, rfl, rfl, rfl⟩)
  · exact .next h

/-- The RESTART being served is answered, and the engine runs again (R192). -/
theorem restartReply_owes (h : s.Owes n) : (restartReply s).Owes n := by
  have hlink : (restartReply s).link.Owes (s.runningRequests - s.restartOwed + n) := by
    have hcounted := s.runningRequests_eq
    unfold restartReply
    cases hq : s.restart with
    | none =>
      have hnone : s.restartOwed = 0 := by simp [State.restartOwed, hq]
      exact ⟨by simpa [hnone] using h.link.count, h.link.limit⟩
    | some q =>
      have hsome : s.restartOwed = owed q.stale := by simp [State.restartOwed, hq]
      have hanswered : (makeReply q.tag q.stale .ok [] s).link.Owes (s.runningRequests - s.restartOwed + n) := by
        refine makeReply_link_owes ?_
        have hsum : s.runningRequests - s.restartOwed + n + owed q.stale = s.runningRequests + n := by omega
        exact hsum ▸ h.link
      exact ⟨hanswered.count, hanswered.limit⟩
  have hrunning : (restartReply s).runningRequests = s.runningRequests - s.restartOwed := by
    simp only [State.runningRequests_eq, Nat.add_sub_cancel]
    unfold restartReply
    dsimp only
    split <;> simp [State.restartOwed]
  refine ⟨fun w => ?_, fun _ => rfl, hrunning ▸ hlink⟩
  unfold restartReply
  dsimp only
  split <;> simpa using h.coherent w

/-- The walk that ends is a restart walk, which no request counts. -/
theorem restartCompletes_owes {page : Nat} (h : s.Owes n) (hs : s.alloc.scanner = .restartWalk page) :
    (restartCompletes s).Owes n := by
  have hwalked : (finishRestartWalk s).Owes n := h.setAlloc (by simp [hs, Scanner.releaseOwed])
  have hraised := raiseEvent_owes (key := .ready) (payload := .ready .restart) (hwalked.frame
    (t := ((((finishRestartWalk s).setRegions ((finishRestartWalk s).regions.map Region.restarted)).setPorts
      ((finishRestartWalk s).ports.map Port.cleared)).setEvents { s.events with entries := [] })) ⟨rfl, rfl, rfl, rfl⟩)
  exact restartReply_owes (evaluateNotice_owes (hraised.frame ⟨rfl, rfl, rfl, rfl⟩))

theorem restartExamine_owes {page : Nat} (h : s.Owes n) : (restartExamine page s).Owes n := by
  unfold restartExamine
  split
  · split <;> exact h.frame (by simp)
  · exact h

theorem restartExamine_scanner (page : Nat) (s : State) : (restartExamine page s).alloc.scanner = s.alloc.scanner := by
  unfold restartExamine
  split
  · split <;> simp
  · rfl

theorem execRestartWalkStep_answered (h : s.Owes 0) : Answered (execRestartWalkStep s) := by
  unfold execRestartWalkStep
  split
  · next page hs =>
    have hexamined : (restartExamine page s).Owes 0 := restartExamine_owes h
    have hwalk := (restartExamine_scanner page s).trans hs
    dsimp only
    split
    · exact .next (hexamined.setAlloc (by simp [hwalk, Scanner.releaseOwed]))
    · exact .next (restartCompletes_owes hexamined hwalk)
  · exact .next h

/-! ### The host link's line (chapter 10) -/

theorem setKept_owes {kept : List Byte} (h : s.Owes n) : (s.setKept kept).Owes n :=
  h.follow (fun _ hk => ⟨hk.count, hk.limit⟩) ⟨rfl, rfl, rfl, rfl⟩

theorem activateLink_owes (h : s.Owes n) : (activateLink s).Owes n := by
  have hactive : (s.setLink { s.link with state := .active }).Owes n :=
    h.follow (fun _ hk => ⟨hk.count, hk.limit⟩) ⟨rfl, rfl, rfl, rfl⟩
  unfold activateLink
  dsimp only
  split
  · split
    · exact raiseEvent_owes hactive
    · exact arbitrate_owes hactive
  · exact h

/-- A request accepted is counted as it joins the queue, while fewer than 8 are (R174). -/
theorem acceptFrame_owes {q : Request} (h : s.Owes n) : (acceptFrame q s).Owes n := by
  unfold acceptFrame
  split
  · next hroom =>
    refine h.follow (fun k hk => ⟨?_, hroom⟩) ⟨rfl, rfl, rfl, rfl⟩
    have hcount := hk.count
    simp only [State.setLink_link, List.length_append, List.length_singleton]
    omega
  · exact raiseEvent_owes h

theorem receiveBytes_owes {steps : Nat} {bytes : List Byte} (h : s.Owes n) : (receiveBytes steps bytes s).Owes n := by
  induction steps generalizing bytes s with
  | zero => exact h
  | succ steps ih =>
    cases bytes with
    | nil => exact h
    | cons b rest =>
      unfold receiveBytes
      split
      · exact ih (setKept_owes h)
      · exact ih (raiseEvent_owes (setKept_owes h))
      · split
        · exact ih (acceptFrame_owes (activateLink_owes (setKept_owes h)))
        · exact ih (raiseEvent_owes (setKept_owes h))

theorem execCharacterTaken_answered (data : Byte) (stopBit : Bool) (h : s.Owes 0) :
    Answered (execCharacterTaken data stopBit s) := by
  unfold execCharacterTaken
  split
  · exact .next (receiveBytes_owes h)
  · exact .next h

theorem execInterByteTimeout_answered (h : s.Owes 0) : Answered (execInterByteTimeout s) := by
  unfold execInterByteTimeout
  split
  · exact .next (raiseEvent_owes (setKept_owes h))
  · exact .next h

theorem Window.markStale_coherent {x : Window} (h : x.coherent) : x.markStale.coherent := by
  obtain ⟨hclosed, hopened, hclosing, hcursor, hfetch⟩ := h
  refine ⟨fun hc => ?_, fun ho => ?_, fun hc => ?_, hcursor, fun f hf => ?_⟩
  · obtain ⟨hpin, hnone, htag⟩ := hclosed hc
    simp [Window.markStale, hpin, hnone, htag]
  · simp [Window.markStale, hopened ho]
  · simpa [Window.markStale] using hclosing hc
  · obtain ⟨g, hg, rfl⟩ := Option.map_eq_some_iff.1 hf
    exact hfetch g hg

theorem Window.markStale_owed (x : Window) : x.markStale.fetchOwed = 0 ∧ x.markStale.closeOwed = 0 := by
  constructor
  · cases hf : x.fetch <;> simp [Window.fetchOwed, Window.markStale, owed, hf]
  · cases hc : x.closeTag <;> simp [Window.closeOwed, Window.markStale, owed, hc]

theorem Scanner.markStale_releaseOwed (x : Scanner) : x.markStale.releaseOwed = 0 := by cases x <;> rfl

/-- The block after a break while ACTIVE (R173, R175). -/
def linkBroken (s : State) : State :=
  { s with
    link := { s.link with
      kept := [], state := .quiet, epoch := s.link.epoch + 1, transmitting := none, requests := [], replies := []
      outstanding := 0, runCount := 0 }
    events := { s.events with readyCause := .link }
    windows := s.windows.map Window.markStale
    alloc := { s.alloc with scanner := s.alloc.scanner.markStale }
    restart := s.restart.map fun q => { q with stale := true } }

theorem execLinkBreak_active (h : s.link.state = .active) : execLinkBreak s = .next (linkBroken s) := if_pos h

theorem execLinkBreak_quiet (h : s.link.state = .quiet) : execLinkBreak s = .next (s.setKept []) :=
  if_neg (by simp [h])

theorem linkBroken_window (s : State) (w : WindowId) : (linkBroken s).window w = (s.window w).markStale :=
  vector_get_map Window.markStale s.windows w

/-- What runs on after a break is stale, and so is not counted. -/
theorem linkBroken_runningRequests (s : State) : (linkBroken s).runningRequests = 0 := by
  have hscanner : (linkBroken s).alloc.scanner.releaseOwed = 0 := s.alloc.scanner.markStale_releaseOwed
  have hrestart : (linkBroken s).restartOwed = 0 := by
    unfold State.restartOwed linkBroken
    cases s.restart <;> rfl
  simp [State.runningRequests_eq, linkBroken_window, Window.markStale_owed, hscanner, hrestart]

/-- A break leaves no request counted, and the queues are empty with it (R173, R175). -/
theorem linkBroken_owes (h : s.Owes 0) : (linkBroken s).Owes 0 := by
  refine ⟨fun w => ?_, fun hr => ?_, (linkBroken_runningRequests s).symm ▸ ⟨rfl, Nat.zero_le 8⟩⟩
  · exact (linkBroken_window s w).symm ▸ Window.markStale_coherent (h.coherent w)
  · exact congrArg (Option.map fun q : RunningRestart => { q with stale := true }) (h.engine hr)

theorem execLinkBreak_answered (h : s.Owes 0) : Answered (execLinkBreak s) := by
  cases hs : s.link.state with
  | active => exact execLinkBreak_active hs ▸ .next (linkBroken_owes h)
  | quiet => exact execLinkBreak_quiet hs ▸ .next (setKept_owes h)

theorem execTransmitFrameEnd_answered (h : s.Owes 0) : Answered (execTransmitFrameEnd s) := by
  unfold execTransmitFrameEnd
  split
  · exact .next (arbitrate_owes (h.follow (fun _ hk => ⟨hk.count, hk.limit⟩) ⟨rfl, rfl, rfl, rfl⟩))
  · exact .next h

/-! ### Requests -/

theorem refuse_owes {tag : Byte} {status : Status} {length : Nat} {number : Byte} (h : s.Owes 1) :
    (refuse tag status length number s).Owes 0 := answer_owes h

/-- A request taken leaves its queue and is owed its answer (R179). -/
theorem taken_owes {q : Request} {rest : List Request} (h : s.Owes 0) (hq : s.link.requests = q :: rest) :
    (s.taken rest).Owes 1 := by
  refine ⟨h.coherent, h.engine, ?_, h.link.limit⟩
  have hcount := h.link.count
  rw [hq, List.length_cons] at hcount
  exact hcount.trans (by simp [State.taken, State.runningRequests]; omega)

/-- A request command answers its request where its owner does, from the state with the request taken. No RESTART is served
there, for the engine runs (10.6). -/
theorem serve_answered {kind tag : Byte} {body : List Byte} {owner : State → State} (h : s.Owes 0)
    (howner : ∀ t, t.Owes 1 → t.restart = none → (owner t).Owes 0) : Answered (.next (serve kind tag body owner s)) := by
  refine .next ?_
  unfold serve
  split
  · next t ht =>
    obtain ⟨rest, hrunning, hrequests, rfl⟩ := takeRequest_some ht
    have htaken := taken_owes h hrequests
    unfold dispatch
    split
    · exact answer_owes htaken
    · split
      · exact answer_owes htaken
      · exact howner _ htaken (h.engine hrunning)
  · exact h

theorem execUnknownKind_answered (kind tag : Byte) (body : List Byte) (h : s.Owes 0) :
    Answered (execUnknownKind kind tag body s) := by
  unfold execUnknownKind
  split
  · next t _ ht =>
    obtain ⟨rest, -, hrequests, rfl⟩ := takeRequest_some ht
    exact .next (answer_owes (taken_owes h hrequests))
  · exact .next h

/-- An abandoned RELEASE is answered (R33). -/
theorem abandonRelease_owes (h : s.Owes n) : (abandonRelease s).Owes n := by
  unfold abandonRelease
  split
  · next hs => exact makeReply_owes (h.setAlloc (by simp [hs, Scanner.releaseOwed, Nat.add_comm]))
  · exact h

theorem closeWindows_owes (h : s.Owes n) : (closeWindows s).Owes n := by
  unfold closeWindows
  induction List.finRange 4 generalizing s with
  | nil => exact h
  | cons w ws ih => exact ih (restartWindow_owes h)

/-- The RESTART runs on with the engine HELD, and no other is being served (R191). -/
theorem beginRestart_owes {tag : Byte} (h : s.Owes 1) (hnone : s.restart = none) : (beginRestart tag s).Owes 0 := by
  have hheld : (((s.setLink { s.link with engine := .held }).setDevice .restarting).setRestart (some ⟨tag, false⟩)).Owes 0 := by
    refine ⟨h.coherent, nofun, ?_, h.link.limit⟩
    refine h.link.count.trans (congrArg _ ?_)
    simp [State.runningRequests_eq, State.restartOwed, hnone, owed]
  exact closeWindows_owes ((abandonRelease_owes hheld).frame ⟨rfl, rfl, rfl, rfl⟩)

theorem setNotice_owes {tag : Byte} {threshold : Nat} (h : s.Owes 1) : (setNotice tag threshold s).Owes 0 := by
  unfold setNotice
  dsimp only
  split
  · exact answer_owes (evaluateNotice_owes (h.frame ⟨rfl, rfl, rfl, rfl⟩))
  · exact answer_owes h

theorem readRetired_owes {tag : Byte} {offset : Nat} (h : s.Owes 1) : (readRetired tag offset s).Owes 0 := by
  unfold readRetired
  dsimp only
  split <;> exact answer_owes h

theorem withRegion_owes {tag : Byte} {body : List Byte} {length : Nat} {f : RegionId → State → State} (h : s.Owes 1)
    (hf : ∀ r, (f r s).Owes 0) : (withRegion tag body length f s).Owes 0 := by
  unfold withRegion
  split
  · exact refuse_owes h
  · exact hf _

theorem defineRegion_owes {tag : Byte} {body : List Byte} {r : RegionId} (h : s.Owes 1) :
    (defineRegion tag body r s).Owes 0 := by
  unfold defineRegion
  dsimp only
  split
  · split
    · exact refuse_owes h
    · exact answer_owes (h.frame ⟨rfl, rfl, rfl, rfl⟩)
  · exact refuse_owes h

theorem armRegion_owes {tag : Byte} {r : RegionId} (h : s.Owes 1) : (armRegion tag r s).Owes 0 := by
  unfold armRegion
  dsimp only
  split
  · exact refuse_owes h
  · split
    · exact refuse_owes h
    · split
      · exact answer_owes h
      · next t ht =>
        have harmed := (reserve_owes h ht).frame (t := t.setRegion r (t.region r).armedRecord) ⟨rfl, rfl, rfl, rfl⟩
        exact answer_owes (storeGrant_owes (notifyCapturing_owes harmed))

theorem triggerRegion_owes {tag : Byte} {r : RegionId} (h : s.Owes 1) : (triggerRegion tag r s).Owes 0 := by
  unfold triggerRegion
  dsimp only
  split
  · exact answer_owes (raiseEvent_owes (h.frame ⟨rfl, rfl, rfl, rfl⟩))
  · split
    · exact answer_owes h
    · exact refuse_owes h

theorem stopRequest_owes {tag : Byte} {r : RegionId} (h : s.Owes 1) : (stopRequest tag r s).Owes 0 := by
  unfold stopRequest
  dsimp only
  split
  · exact answer_owes (stopRegion_owes h)
  · split
    · exact answer_owes h
    · exact refuse_owes h

/-- A RELEASE accepted runs on with the walk, and no other walk serves one (R30, R59). -/
theorem beginRelease_owes {tag : Byte} {r : RegionId} (h : s.Owes 1) (hs : s.alloc.scanner.walking = false) :
    (beginRelease tag r s).Owes 0 := by
  have hidle : s.alloc.scanner.releaseOwed = 0 := by
    cases hscanner : s.alloc.scanner with
    | idle => rfl
    | restartWalk page => rfl
    | releaseWalk => simp [hscanner, Scanner.walking] at hs
  have hleft : ((s.setCache (s.cache.purgeRegion r)).setRegion r { s.region r with state := .releasing }).Owes 1 :=
    h.frame ⟨rfl, rfl, rfl, rfl⟩
  exact hleft.setAlloc (congrArg (· + 1) hidle.symm)

theorem releaseRegion_owes {tag : Byte} {r : RegionId} (h : s.Owes 1) : (releaseRegion tag r s).Owes 0 := by
  unfold releaseRegion
  dsimp only
  split
  · exact answer_owes h
  · split
    · exact refuse_owes h
    · split
      · split
        · exact refuse_owes h
        · next hfree =>
          simp only [Bool.or_eq_true, not_or, Bool.not_eq_true] at hfree
          exact beginRelease_owes h hfree.2
      · exact refuse_owes h

theorem setEventsRegion_owes {tag : Byte} {body : List Byte} {r : RegionId} (h : s.Owes 1) :
    (setEventsRegion tag body r s).Owes 0 := by
  unfold setEventsRegion
  dsimp only
  split
  · exact answer_owes (h.frame ⟨rfl, rfl, rfl, rfl⟩)
  · exact refuse_owes h

theorem moveBinding_owes {p : PortId} {target : Option RegionId} (h : s.Owes n) : (moveBinding p target s).Owes n := by
  unfold moveBinding setBoundPort
  repeat' split
  all_goals exact h.frame ⟨rfl, rfl, rfl, rfl⟩

theorem bindAt_owes {tag : Byte} {body : List Byte} (h : s.Owes 1) : (bindAt tag body s).Owes 0 := by
  unfold bindAt
  dsimp only
  split
  · split
    · exact refuse_owes h
    · split
      · exact refuse_owes h
      · exact answer_owes (setPort_owes (moveBinding_owes h))
  · exact refuse_owes h

theorem queryPort_owes {tag : Byte} {body : List Byte} (h : s.Owes 1) : (queryPort tag body s).Owes 0 := by
  unfold queryPort
  split <;> exact answer_owes h

/-- What the tests of an OPEN leave to it: a CLOSED window and a range that is not empty (R123). -/
theorem openRefusal_none {w : WindowId} {r : RegionId} {a : OpenArgs} (h : openRefusal w r a s = none) :
    (s.window w).state = .closed ∧ a.first ≤ a.last := by
  have hclosed : (s.window w).state = .closed := by_contra fun hne => nomatch (openRefusal_busy hne).symm.trans h
  have hfaulted : (s.region r).state ≠ .faulted := fun hf => nomatch (openRefusal_faulted hclosed hf).symm.trans h
  have hserves : (s.region r).capturing = true ∨ (s.region r).state = .stopped :=
    by_contra fun hne => nomatch (openRefusal_badState hclosed hfaulted hne).symm.trans h
  rw [openRefusal_serves hclosed hserves] at h
  refine ⟨hclosed, Nat.le_of_not_lt fun hlt => ?_⟩
  rw [if_pos hlt] at h
  cases h

theorem openedWindow_coherent (r : RegionId) {a : OpenArgs} (h : a.first ≤ a.last) : (openedWindow r a).coherent :=
  ⟨nofun, fun _ => rfl, nofun, fun _ => ⟨Nat.le_refl _, Nat.le_succ_of_le h⟩, nofun⟩

theorem openAt_owes {tag : Byte} {body : List Byte} (h : s.Owes 1) : (openAt tag body s).Owes 0 := by
  unfold openAt
  dsimp only
  split
  · next w r _ _ =>
    split
    · exact answer_owes h
    · split
      · exact answer_owes h
      · next hpasses =>
        obtain ⟨hclosed, hrange⟩ := openRefusal_none hpasses
        obtain ⟨-, hfetch, htag⟩ := (h.coherent w).1 hclosed
        refine answer_owes (h.setWindow (openedWindow_coherent r hrange) ?_)
        simp [openedWindow, Window.fetchOwed, Window.closeOwed, hfetch, htag]
  · exact answer_owes h

/-- What the tests of a FETCH leave to it: a window that is not CLOSED, has no fetch in flight and is not at its end (R126). -/
theorem fetchRefusal_none {w : WindowId} {count : Nat} (h : fetchRefusal w count s = none) :
    (s.window w).state ≠ .closed ∧ (s.window w).fetch = none ∧ (s.window w).cursor ≤ (s.window w).last := by
  have hopen : (s.window w).state ≠ .closed := fun hc => nomatch (fetchRefusal_badState hc).symm.trans h
  have hidle : (s.window w).fetch = none :=
    Option.not_isSome_iff_eq_none.1 fun hf => nomatch (fetchRefusal_busy hopen hf).symm.trans h
  have hcount : ¬(count = 0 ∨ 256 < count) := fun hc => nomatch (fetchRefusal_badArg hopen hidle hc).symm.trans h
  rw [fetchRefusal_counted hopen hidle (by omega) (by omega)] at h
  refine ⟨hopen, hidle, Nat.le_of_not_lt fun hlt => ?_⟩
  dsimp only at h
  rw [if_pos hlt] at h
  split at h <;> cases h

/-- The fetch that starts counts its request, and asks for no more than its window has left (R127). -/
theorem startFetch_owes {w : WindowId} {count : Nat} (tag : Byte) (h : s.Owes 1) (hp : fetchRefusal w count s = none) :
    (s.setWindow w { s.window w with fetch := some (startFetch tag w count s) }).Owes 0 := by
  obtain ⟨hopen, hnone, hroom⟩ := fetchRefusal_none hp
  obtain ⟨-, hopened, hclosing, hcursor, -⟩ := h.coherent w
  refine h.setWindow ⟨fun hc => absurd hc hopen, hopened, fun hc => ⟨rfl, (hclosing hc).2⟩, hcursor, ?_⟩ ?_
  · rintro _ ⟨⟩
    have htotal : fetchTotal (s.window w) (s.region (s.window w).region) count ≤ (s.window w).last + 1 - (s.window w).cursor :=
      (Nat.min_le_right _ _).trans ((Nat.min_le_right _ _).trans (Nat.min_le_left _ _))
    refine ⟨hroom, Nat.zero_le _, ?_⟩
    simp only [startFetch]
    omega
  · simp only [Window.fetchOwed, Window.closeOwed, hnone, Option.elim_none, Option.elim_some, startFetch, owed]
    simp
    omega

theorem fetchAt_owes {tag : Byte} {body : List Byte} (h : s.Owes 1) : (fetchAt tag body s).Owes 0 := by
  unfold fetchAt
  dsimp only
  split
  · exact answer_owes h
  · split
    · exact answer_owes h
    · next hpasses => exact storeGrant_owes (fetchNext_owes (startFetch_owes tag h hpasses))

/-- A CLOSE taken while a fetch is in flight waits for it (R135). -/
theorem beginClosing_owes {w : WindowId} {f : Fetch} {tag : Byte} (h : s.Owes 1) (ho : (s.window w).state = .opened)
    (hf : (s.window w).fetch = some f) : (beginClosing w f tag s).Owes 0 := by
  obtain ⟨-, hopened, -, hcursor, hfetch⟩ := h.coherent w
  refine h.setWindow ⟨nofun, nofun, fun _ => ⟨rfl, rfl⟩, fun _ => hcursor (by simp [ho]), ?_⟩ ?_
  · rintro _ ⟨⟩
    exact hfetch f hf
  · simp [Window.fetchOwed, Window.closeOwed, hf, hopened ho, owed]

theorem closeAt_owes {tag : Byte} {body : List Byte} (h : s.Owes 1) : (closeAt tag body s).Owes 0 := by
  unfold closeAt
  dsimp only
  split
  · exact refuse_owes h
  · next w _ =>
    split
    · exact answer_owes h
    · exact refuse_owes h
    · next ho hf => exact beginClosing_owes h ho hf
    · next ho hf =>
      refine answer_owes (storeGrant_owes (becomeClosed_owes (h.setWindow (Window.shut_coherent hf) ?_)))
      simp [Window.shut, Window.fetchOwed, Window.closeOwed, hf, (h.coherent w).2.1 ho]

theorem queryWindow_owes {tag : Byte} {body : List Byte} (h : s.Owes 1) : (queryWindow tag body s).Owes 0 := by
  unfold queryWindow
  split <;> exact answer_owes h

/-! ### Every command -/

theorem exec_answered (c : Instr) (h : s.Owes 0) : Answered (exec c s) := by
  cases c with
  | hardReset cause rate mode => exact execHardReset_answered cause rate mode s
  | sweepStepComplete words => exact execSweepStepComplete_answered words h
  | directoryClearComplete => exact execDirectoryClearComplete_answered h
  | byteStrobe p data sor mrk => exact .next (takePortByte_owes h)
  | recordWriteComplete => exact execRecordWriteComplete_answered h
  | directoryReadComplete word => exact execDirectoryReadComplete_answered word h
  | directoryWriteComplete word => exact execDirectoryWriteComplete_answered word h
  | recordReadComplete words => exact execRecordReadComplete_answered words h
  | releaseWalkStep => exact execReleaseWalkStep_answered h
  | restartWalkBegin => exact execRestartWalkBegin_answered h
  | restartWalkStep => exact execRestartWalkStep_answered h
  | frameReceived data => exact .next (receiveBytes_owes h)
  | interByteTimeout => exact execInterByteTimeout_answered h
  | linkBreak => exact execLinkBreak_answered h
  | transmitFrameEnd => exact execTransmitFrameEnd_answered h
  | unknownKind kind tag body => exact execUnknownKind_answered kind tag body h
  | identify tag body => exact serve_answered h fun _ k _ => answer_owes k
  | status tag body => exact serve_answered h fun _ k _ => answer_owes k
  | restart tag body => exact serve_answered h fun _ => beginRestart_owes
  | setPoolNotice tag body => exact serve_answered h fun _ k _ => setNotice_owes k
  | retired tag body => exact serve_answered h fun _ k _ => readRetired_owes k
  | define tag body => exact serve_answered h fun _ k _ => withRegion_owes k fun _ => defineRegion_owes k
  | arm tag body => exact serve_answered h fun _ k _ => withRegion_owes k fun _ => armRegion_owes k
  | trigger tag body => exact serve_answered h fun _ k _ => withRegion_owes k fun _ => triggerRegion_owes k
  | stop tag body => exact serve_answered h fun _ k _ => withRegion_owes k fun _ => stopRequest_owes k
  | release tag body => exact serve_answered h fun _ k _ => withRegion_owes k fun _ => releaseRegion_owes k
  | query tag body => exact serve_answered h fun _ k _ => withRegion_owes k fun _ => answer_owes k
  | setEvents tag body => exact serve_answered h fun _ k _ => withRegion_owes k fun _ => setEventsRegion_owes k
  | bindPort tag body => exact serve_answered h fun _ k _ => bindAt_owes k
  | portQuery tag body => exact serve_answered h fun _ k _ => queryPort_owes k
  | openWindow tag body => exact serve_answered h fun _ k _ => openAt_owes k
  | fetch tag body => exact serve_answered h fun _ k _ => fetchAt_owes k
  | closeWindow tag body => exact serve_answered h fun _ k _ => closeAt_owes k
  | windowQuery tag body => exact serve_answered h fun _ k _ => queryWindow_owes k
  | characterTaken data stopBit => exact execCharacterTaken_answered data stopBit h

end Sys2Proof.Machine

open Sys2Proof Sys2Proof.Machine

/-- Settles O59: every command comes to a state that owes no answer but those it counts. -/
theorem stepsKeepOutstandingAccounts : Obligations.StepsKeepOutstandingAccounts := by
  intro s t hs h
  unfold step at h
  split at h
  · obtain rfl := Host.Outcome.next.inj h
    exact hs
  · next c rest _ =>
    have hpopped : State.Owes { s with pending := rest } 0 :=
      ((State.outstandingAccounts_iff s).1 hs).frame ⟨rfl, rfl, rfl, rfl⟩
    exact (State.outstandingAccounts_iff t).2 (exec_answered c hpopped t h)
end

section
/-! SUPPORT. The outbound arbiter (R178), row by row of its table. -/

namespace Sys2Proof.Machine

variable {s : State}

theorem arbitrate_held (h : s.link.transmitting.isSome = true ∨ s.link.state = .quiet) : arbitrate s = s := if_pos h

theorem arbitrate_empty (hr : s.link.replies = []) (he : s.events.entries = []) : arbitrate s = s := by
  simp only [arbitrate, hr, he, ite_self]

section
variable (ht : s.link.transmitting = none) (ha : s.link.state = .active)
include ht ha

/-- A reply goes first while it is alone or fewer than 4 have gone since the last event. -/
theorem arbitrate_reply {r : Reply} {rs : List Reply} (hr : s.link.replies = r :: rs)
    (hfirst : s.events.entries = [] ∨ s.link.runCount < 4) : arbitrate s = startReply r rs s := by
  have hfree : ¬(s.link.transmitting.isSome = true ∨ s.link.state = .quiet) := by simp [ht, ha]
  rw [arbitrate, if_neg hfree, hr]
  cases he : s.events.entries with
  | nil => rfl
  | cons e es => exact if_pos (hfirst.resolve_left (by simp [he]))

/-- An event goes first while it is alone or 4 replies have gone since the last. -/
theorem arbitrate_event {e : EventEntry} {es : List EventEntry} (he : s.events.entries = e :: es)
    (hfirst : s.link.replies = [] ∨ 4 ≤ s.link.runCount) : arbitrate s = startEvent e es s := by
  have hfree : ¬(s.link.transmitting.isSome = true ∨ s.link.state = .quiet) := by simp [ht, ha]
  rw [arbitrate, if_neg hfree, he]
  cases hr : s.link.replies with
  | nil => rfl
  | cons r rs => exact if_neg (Nat.not_lt.2 (hfirst.resolve_left (by simp [hr])))

end

theorem exec_transmitFrameEnd {f : OutFrame} (h : s.link.transmitting = some f) : exec .transmitFrameEnd s =
    .next (arbitrate { s with link := { s.link with transmitting := none } }) := by
  have hexec : exec .transmitFrameEnd s = execTransmitFrameEnd s := rfl
  rw [hexec, execTransmitFrameEnd, h]
  rfl

end Sys2Proof.Machine

open Sys2Proof Sys2Proof.Machine

/-- Settles O10: the table of R178 row by row, and what is made of a reply. -/
theorem arbiterStartsTheFrame : Obligations.ArbiterStartsTheFrame := by
  intro s
  refine ⟨arbitrate_held, arbitrate_empty, fun ht ha => ⟨fun r rs => arbitrate_reply ht ha, fun e es => arbitrate_event ht ha⟩,
    fun tag status body => ⟨rfl, rfl⟩, fun f => exec_transmitFrameEnd⟩
end

section
/-! SUPPORT. The receiver (10.2): the bytes of a partial frame, what one byte does in each phase (R168, R169), and the scan of kept
bytes, which is the taking of each in turn (`receiveBytes_eq_rescan`); the link made ACTIVE, the timeout and the break. -/

namespace Sys2Proof.Machine

/-! ### The bytes of a partial frame (R181) -/

section
variable {kept : List Byte} {b : Byte}

theorem field_two {l : List Byte} {i : Nat} (h : i + 2 ≤ l.length) :
    field l i 2 = (l.getD i 0).toNat * 256 + (l.getD (i + 1) 0).toNat := by
  have htwo : (l.drop i).take 2 = [l[i], l[i + 1]] := by
    rw [List.drop_eq_getElem_cons (by omega), List.drop_eq_getElem_cons (by omega)]
    rfl
  rw [field, htwo, List.getD_eq_getElem _ _ (by omega), List.getD_eq_getElem _ _ (by omega)]
  simp [beValue]

theorem frameLength_eq (h : 3 ≤ kept.length) :
    frameLength kept = (kept.getD 1 0).toNat * 256 + (kept.getD 2 0).toNat := field_two h

theorem frameLength_append (h : 3 ≤ kept.length) : frameLength (kept ++ [b]) = frameLength kept := by
  rw [frameLength_eq h, frameLength_eq (by simp; omega), List.getD_append _ _ _ _ (by omega), List.getD_append _ _ _ _ (by omega)]

theorem frameLength_second (h : kept.length = 2) :
    frameLength (kept ++ [b]) = (kept.getD 1 0).toNat * 256 + b.toNat := by
  rw [frameLength_eq (by simp [h]), List.getD_append _ _ _ _ (by omega), List.getD_append_right _ _ _ _ (by omega), h]
  rfl

theorem keptTag_append (h : 5 ≤ kept.length) : keptTag (kept ++ [b]) = kept[4]? :=
  List.getElem?_append_left (by omega)

variable (h : kept.length = 4 + frameLength kept)
include h

theorem frameValid_iff : frameValid (kept ++ [b]) = true ↔
    (frameCheck ((kept.drop 1).take (2 + frameLength kept))).toNat =
      (kept.getD (3 + frameLength kept) 0).toNat * 256 + b.toNat := by
  have hcheck : field (kept ++ [b]) (3 + frameLength kept) 2 =
      (kept.getD (3 + frameLength kept) 0).toNat * 256 + b.toNat := by
    rw [field_two (by simp; omega), List.getD_append _ _ _ _ (by omega), List.getD_append_right _ _ _ _ (by omega),
      show 3 + frameLength kept + 1 - kept.length = 0 by omega]
    rfl
  have hchecked : ((kept ++ [b]).drop 1).take (2 + frameLength kept) = (kept.drop 1).take (2 + frameLength kept) := by
    rw [List.drop_append_of_le_length (by omega), List.take_append_of_le_length (by simp; omega)]
  rw [frameValid, frameLength_append (by omega), hcheck, hchecked, decide_eq_true_iff, eq_comm]

theorem frameRequest_complete (hl : 2 ≤ frameLength kept) : frameRequest (kept ++ [b]) =
    ⟨kept.getD 3 0, kept.getD 4 0, (kept.drop 5).take (frameLength kept - 2)⟩ := by
  rw [frameRequest, frameLength_append (by omega), List.getD_append _ _ _ _ (by omega), List.getD_append _ _ _ _ (by omega),
    List.drop_append_of_le_length (by omega), List.take_append_of_le_length (by simp; omega)]

end

/-! ### The phases (R168) -/

section
variable {kept : List Byte} (b : Byte)

theorem phaseOf_length (hne : kept ≠ []) (h : kept.length < 3) : phaseOf kept = .length := by
  rw [phaseOf, if_neg (by simpa using hne), if_pos h]

theorem phaseOf_content (h : 3 ≤ kept.length) (hl : kept.length < 3 + frameLength kept) : phaseOf kept = .content := by
  rw [phaseOf, if_neg (by omega), if_neg (by omega), if_pos hl]

theorem phaseOf_check (h : 3 ≤ kept.length) (hl : 3 + frameLength kept ≤ kept.length) : phaseOf kept = .check := by
  rw [phaseOf, if_neg (by omega), if_neg (by omega), if_neg (by omega)]

theorem takeByte_sync : takeByte [] 0xA5 = .kept [0xA5] := rfl

theorem takeByte_hunt {b : Byte} (h : b ≠ 0xA5) : takeByte [] b = .kept [] := if_neg h

theorem takeByte_first (h : kept.length = 1) : takeByte kept b = .kept (kept ++ [b]) := by
  rw [takeByte, phaseOf_length (List.ne_nil_of_length_eq_add_one h) (by omega)]
  exact if_pos h

theorem takeByte_length {b : Byte} (h : kept.length = 2)
    (hl : 2 ≤ frameLength (kept ++ [b]) ∧ frameLength (kept ++ [b]) ≤ 64) : takeByte kept b = .kept (kept ++ [b]) := by
  rw [takeByte, phaseOf_length (List.ne_nil_of_length_eq_add_one h) (by omega)]
  exact (if_neg (by omega)).trans (if_pos hl)

theorem takeByte_badLength {b : Byte} (h : kept.length = 2)
    (hl : ¬(2 ≤ frameLength (kept ++ [b]) ∧ frameLength (kept ++ [b]) ≤ 64)) :
    takeByte kept b = .badLength (kept ++ [b]) := by
  rw [takeByte, phaseOf_length (List.ne_nil_of_length_eq_add_one h) (by omega)]
  exact (if_neg (by omega)).trans (if_neg hl)

/-- Header, body and the first CHECK byte are kept. -/
theorem takeByte_content (h : 3 ≤ kept.length) (hl : kept.length ≤ 3 + frameLength kept) :
    takeByte kept b = .kept (kept ++ [b]) := by
  rcases Nat.lt_or_eq_of_le hl with hlt | heq
  · rw [takeByte, phaseOf_content h hlt]
  · rw [takeByte, phaseOf_check h (Nat.le_of_eq heq.symm)]
    exact if_pos heq

theorem takeByte_complete (h : 3 ≤ kept.length) (hl : 3 + frameLength kept < kept.length) :
    takeByte kept b = .complete (kept ++ [b]) := by
  rw [takeByte, phaseOf_check h (Nat.le_of_lt hl)]
  exact if_neg (Nat.ne_of_gt hl)

/-- A byte joins the kept ones, is not kept, or ends the frame. -/
theorem takeByte_cases (kept : List Byte) (b : Byte) : takeByte kept b = .kept (kept ++ [b]) ∨ takeByte kept b = .kept [] ∨
    takeByte kept b = .badLength (kept ++ [b]) ∨ takeByte kept b = .complete (kept ++ [b]) := by
  by_cases h3 : 3 ≤ kept.length
  · by_cases hl : kept.length ≤ 3 + frameLength kept
    · exact .inl (takeByte_content b h3 hl)
    · exact .inr (.inr (.inr (takeByte_complete b h3 (by omega))))
  · by_cases h2 : kept.length = 2
    · by_cases hl : 2 ≤ frameLength (kept ++ [b]) ∧ frameLength (kept ++ [b]) ≤ 64
      · exact .inl (takeByte_length h2 hl)
      · exact .inr (.inr (.inl (takeByte_badLength h2 hl)))
    · by_cases h1 : kept.length = 1
      · exact .inl (takeByte_first b h1)
      · obtain rfl : kept = [] := List.eq_nil_of_length_eq_zero (by omega)
        by_cases hb : b = 0xA5
        · subst hb
          exact .inl takeByte_sync
        · exact .inr (.inl (takeByte_hunt hb))

end

/-! ### One byte -/

variable {s : State} {b : Byte}

/-- What the taking of one byte leads to before any scan: the bytes to be scanned again, and the state. -/
def byteTaken (b : Byte) (s : State) : List Byte × State :=
  match takeByte s.link.kept b with
  | .kept kept => ([], s.setKept kept)
  | .badLength kept => (kept.drop 1, raiseLinkError .badLength none (s.setKept []))
  | .complete kept =>
    if frameValid kept then ([], acceptFrame (frameRequest kept) (activateLink (s.setKept [])))
    else (kept.drop 1, raiseLinkError .badCheck (keptTag kept) (s.setKept []))

theorem receiveBytes_nil (steps : Nat) (s : State) : receiveBytes steps [] s = s := by cases steps <;> rfl

theorem receiveBytes_succ_cons (steps : Nat) (b : Byte) (rest : List Byte) (s : State) :
    receiveBytes (steps + 1) (b :: rest) s = receiveBytes steps ((byteTaken b s).1 ++ rest) (byteTaken b s).2 := by
  rw [receiveBytes, byteTaken]
  cases takeByte s.link.kept b with
  | kept kept => rfl
  | badLength kept => rfl
  | complete kept => cases hv : frameValid kept <;> simp [hv]

@[simp] theorem setKept_kept (s : State) (kept : List Byte) : (s.setKept kept).link.kept = kept := rfl

@[simp] theorem raiseLinkError_kept (cause : LinkErrorCause) (tag : Option Byte) (s : State) :
    (raiseLinkError cause tag s).link.kept = s.link.kept := by simp [raiseLinkError]

@[simp] theorem activateLink_kept (s : State) : (activateLink s).link.kept = s.link.kept := by
  unfold activateLink
  dsimp only
  split
  · split <;> simp
  · rfl

@[simp] theorem acceptFrame_kept (q : Request) (s : State) : (acceptFrame q s).link.kept = s.link.kept := by
  unfold acceptFrame
  split
  · rfl
  · exact raiseLinkError_kept ..

/-- No byte is to be scanned again, or all that were kept but the SYNC and none is kept. -/
theorem byteTaken_kept (b : Byte) (s : State) :
    ((byteTaken b s).1 = [] ∧ (byteTaken b s).2.link.kept.length ≤ s.link.kept.length + 1) ∨
      ((byteTaken b s).1.length = s.link.kept.length ∧ (byteTaken b s).2.link.kept = []) := by
  unfold byteTaken
  rcases takeByte_cases s.link.kept b with h | h | h | h <;> rw [h]
  · simp
  · simp
  · simp
  · cases hv : frameValid (s.link.kept ++ [b]) <;> simp [hv]

/-! ### The scan (R168, R169) -/

/-- Bytes taken one by one, as they come from the line. -/
def rescan (bytes : List Byte) (s : State) : State := bytes.foldl (fun u x => receiveByte x u) s

/-- Steps enough for a scan: with `n` bytes kept or to come, at most `n` are taken before a discard drops one. -/
def scanSteps (s : State) (bytes : List Byte) : Nat :=
  (s.link.kept.length + bytes.length) * (s.link.kept.length + bytes.length) + bytes.length

theorem scanSteps_byteTaken (b : Byte) (rest : List Byte) (s : State) :
    scanSteps (byteTaken b s).2 ((byteTaken b s).1 ++ rest) < scanSteps s (b :: rest) := by
  unfold scanSteps
  rw [List.length_append, List.length_cons]
  rcases byteTaken_kept b s with ⟨hnone, hkept⟩ | ⟨hmore, hnil⟩
  · rw [hnone, List.length_nil, Nat.zero_add]
    have hhand : (byteTaken b s).2.link.kept.length + rest.length ≤ s.link.kept.length + (rest.length + 1) := by omega
    exact Nat.add_lt_add_of_le_of_lt (Nat.mul_le_mul hhand hhand) (Nat.lt_succ_self _)
  · rw [hmore, hnil, List.length_nil, Nat.zero_add, ← Nat.add_assoc]
    nlinarith

theorem scanSteps_single (b : Byte) (s : State) : scanSteps s [b] ≤ receiverSteps s.link.kept := by
  unfold scanSteps receiverSteps
  rw [List.length_singleton]
  nlinarith

theorem scanSteps_append (s : State) (xs ys : List Byte) : scanSteps s xs ≤ scanSteps s (xs ++ ys) := by
  have hlength : xs.length ≤ (xs ++ ys).length := by simp
  exact Nat.add_le_add (Nat.mul_le_mul (Nat.add_le_add_left hlength _) (Nat.add_le_add_left hlength _)) hlength

/-- A byte from the line, given that the scan it leads to takes its bytes one by one. -/
theorem receiveByte_of_scan (h : ∀ steps, scanSteps (byteTaken b s).2 (byteTaken b s).1 ≤ steps →
      receiveBytes steps (byteTaken b s).1 (byteTaken b s).2 = rescan (byteTaken b s).1 (byteTaken b s).2) :
    receiveByte b s = rescan (byteTaken b s).1 (byteTaken b s).2 := by
  have hless := scanSteps_byteTaken b [] s
  have henough := scanSteps_single b s
  rw [List.append_nil] at hless
  obtain ⟨steps, hsteps⟩ : ∃ steps, receiverSteps s.link.kept = steps + 1 := ⟨receiverSteps s.link.kept - 1, by omega⟩
  rw [receiveByte, hsteps, receiveBytes_succ_cons, List.append_nil]
  exact h steps (by omega)

/-- With steps enough, a scan takes its bytes one by one: where the first sends kept bytes back, these come before the rest. -/
theorem receiveBytes_eq_rescan {steps : Nat} {bytes : List Byte} (h : scanSteps s bytes ≤ steps) :
    receiveBytes steps bytes s = rescan bytes s := by
  induction hm : scanSteps s bytes using Nat.strong_induction_on generalizing steps bytes s with
  | _ m ih =>
    cases bytes with
    | nil => exact receiveBytes_nil steps s
    | cons b rest =>
      have hless := scanSteps_byteTaken b rest s
      have hsent := scanSteps_append (byteTaken b s).2 (byteTaken b s).1 rest
      have hbyte : receiveByte b s = rescan (byteTaken b s).1 (byteTaken b s).2 :=
        receiveByte_of_scan fun _ hk => ih _ (by omega) hk rfl
      obtain ⟨k, rfl⟩ : ∃ k, steps = k + 1 := ⟨steps - 1, by omega⟩
      rw [receiveBytes_succ_cons, ih _ (by omega) (by omega) rfl, rescan, List.foldl_append]
      exact congrArg (rest.foldl _) hbyte.symm

/-- A byte from the line: what it leads to, and then the bytes it sends back, one by one. -/
theorem receiveByte_eq (b : Byte) (s : State) : receiveByte b s = rescan (byteTaken b s).1 (byteTaken b s).2 :=
  receiveByte_of_scan fun _ hk => receiveBytes_eq_rescan hk

section
variable {kept : List Byte}

theorem receiveByte_kept (h : takeByte s.link.kept b = .kept kept) : receiveByte b s = s.setKept kept := by
  rw [receiveByte_eq, byteTaken, h]
  rfl

theorem receiveByte_badLength (h : takeByte s.link.kept b = .badLength kept) : receiveByte b s =
    rescan (kept.drop 1) (raiseLinkError .badLength none (s.setKept [])) := by
  rw [receiveByte_eq, byteTaken, h]

theorem receiveByte_badCheck (h : takeByte s.link.kept b = .complete kept) (hv : frameValid kept ≠ true) : receiveByte b s =
    rescan (kept.drop 1) (raiseLinkError .badCheck (keptTag kept) (s.setKept [])) := by
  simp only [receiveByte_eq, byteTaken, h, if_neg hv]

theorem receiveByte_valid (h : takeByte s.link.kept b = .complete kept) (hv : frameValid kept = true) : receiveByte b s =
    acceptFrame (frameRequest kept) (activateLink (s.setKept [])) := by
  simp only [receiveByte_eq, byteTaken, h, if_pos hv]
  rfl

end

/-! ### The link made ACTIVE (R163, R172) -/

theorem readyPending_iff (s : State) : readyPending s = true ↔ ∃ e ∈ s.events.entries, e.key = .ready := by
  simp [readyPending]

theorem activateLink_active (h : s.link.state = .active) : activateLink s = s := if_neg (by simp [h])

theorem activateLink_ready (h : s.link.state = .quiet) (hd : s.device = .run) (hn : ¬∃ e ∈ s.events.entries, e.key = .ready) :
    activateLink s =
      raiseEvent .ready (.ready s.events.readyCause) { s with link := { s.link with state := .active } } := by
  have hpending : readyPending s = false := Bool.eq_false_iff.2 (mt (readyPending_iff s).1 hn)
  exact (if_pos h).trans (if_pos ⟨hd, hpending⟩)

theorem activateLink_quietly (h : s.link.state = .quiet)
    (hn : s.device ≠ .run ∨ ∃ e ∈ s.events.entries, e.key = .ready) :
    activateLink s = arbitrate { s with link := { s.link with state := .active } } := by
  refine (if_pos h).trans (if_neg fun ⟨hd, hpending⟩ => ?_)
  rcases hn with hn | hn
  · exact hn hd
  · exact Bool.eq_false_iff.1 hpending ((readyPending_iff s).2 hn)

/-! ### The inter-byte timeout (R170) -/

theorem interByteTimerRunning_of_kept {l : Link} (h : l.kept ≠ []) : interByteTimerRunning l = true := by
  have hphase : phaseOf l.kept ≠ .hunt := by
    by_cases h3 : l.kept.length < 3
    · rw [phaseOf_length h h3]
      exact nofun
    · by_cases hl : l.kept.length < 3 + frameLength l.kept
      · rw [phaseOf_content (by omega) hl]
        exact nofun
      · rw [phaseOf_check (by omega) (by omega)]
        exact nofun
  exact decide_eq_true hphase

theorem exec_interByteTimeout (h : s.link.kept ≠ []) : exec .interByteTimeout s =
    .next (raiseLinkError .truncated (keptTag s.link.kept) (s.setKept [])) :=
  if_pos (interByteTimerRunning_of_kept h)

/-! ### LINK_BREAK (R173, R175) -/

theorem Scanner.markStale_other {x : Scanner}
    (h : ∀ r page returned retired tag stale, x ≠ .releaseWalk r page returned retired tag stale) : x.markStale = x := by
  cases x with
  | idle => rfl
  | restartWalk page => rfl
  | releaseWalk r page returned retired tag stale => exact absurd rfl (h r page returned retired tag stale)

end Sys2Proof.Machine

open Sys2Proof Sys2Proof.Machine

/-- Settles O36: `receiveBytes_eq_rescan` makes the scan of a discarded frame the taking of its bytes one by one. -/
theorem bytesAreTakenByPhase : Obligations.BytesAreTakenByPhase := by
  intro s b c hc
  have hexec : exec c s = .next (receiveByte b s) := by rcases hc with rfl | rfl <;> rfl
  have hkeeps {kept : List Byte} (h : takeByte s.link.kept b = .kept kept) : exec c s = .next (s.setKept kept) :=
    hexec.trans (congrArg _ (receiveByte_kept h))
  refine ⟨hexec, rfl, fun hnil hb => hkeeps ?_, fun hnil hb => (hkeeps (kept := []) ?_).trans ?_,
    fun hone => hkeeps (takeByte_first b hone), fun htwo hlow hhigh => hkeeps (takeByte_length htwo ?_),
    fun hthree hle => hkeeps (takeByte_content b hthree ?_), fun htwo hbad => ?_, fun hlast hlow hcheck => ?_⟩
  · rw [hnil, hb]
    exact takeByte_sync
  · rw [hnil]
    exact takeByte_hunt hb
  · exact congrArg (fun kept => Host.Outcome.next (s.setKept kept)) hnil.symm
  · rw [frameLength_second htwo]
    exact ⟨hlow, hhigh⟩
  · rwa [frameLength_eq hthree]
  · have hlength : ¬(2 ≤ frameLength (s.link.kept ++ [b]) ∧ frameLength (s.link.kept ++ [b]) ≤ 64) := by
      rw [frameLength_second htwo]
      omega
    have hbyte := receiveByte_badLength (takeByte_badLength htwo hlength)
    rw [List.drop_append_of_le_length (by omega)] at hbyte
    exact hexec.trans (congrArg _ hbyte)
  · have hkept : 3 ≤ s.link.kept.length := by omega
    rw [← frameLength_eq hkept] at hlast hlow hcheck
    have hbyte := receiveByte_badCheck (takeByte_complete b hkept (by omega)) (mt (frameValid_iff hlast).1 hcheck)
    rw [List.drop_append_of_le_length (by omega), keptTag_append (by omega)] at hbyte
    exact hexec.trans (congrArg _ hbyte)

/-- Settles O37: `receiveByte_valid`, with the three ways in which the link is or becomes ACTIVE. -/
theorem validFramesAreAccepted : Obligations.ValidFramesAreAccepted := by
  intro s b length hlow hlast hlength hcheck
  have hkept : 3 ≤ s.link.kept.length := by omega
  rw [← frameLength_eq hkept] at hlength
  subst hlength
  have hbyte := receiveByte_valid (takeByte_complete b hkept (by omega)) ((frameValid_iff hlast).2 hcheck)
  rw [frameRequest_complete hlast hlow] at hbyte
  refine ⟨activateLink (s.setKept []), congrArg _ hbyte, fun hactive => ?_, fun hquiet hready => ?_, fun hquiet hnone => ?_⟩
  · rw [← hactive]
    exact activateLink_active (s := s.setKept []) hactive
  · exact activateLink_ready hquiet hready.1 hready.2
  · exact activateLink_quietly hquiet hnone

/-- Settles O38: the timeout by what is kept, the break by the state of the link. -/
theorem timeoutsAndBreaksDropFrames : Obligations.TimeoutsAndBreaksDropFrames := by
  intro s
  refine ⟨fun hne hshort => ?_, fun htag => ?_, execLinkBreak_quiet, fun hactive => ⟨linkBroken s, execLinkBreak_active hactive,
    rfl, rfl, linkBroken_window s, fun r page n m tag stale hwalk => ?_, fun hother => ?_, rfl, rfl, rfl, rfl, rfl, rfl⟩⟩
  · rw [exec_interByteTimeout hne, keptTag, List.getElem?_eq_none hshort]
    rfl
  · rw [exec_interByteTimeout (List.ne_nil_of_length_pos (by omega)), keptTag, List.getElem?_eq_getElem htag,
      List.getD_eq_getElem _ _ htag]
    rfl
  · exact congrArg (fun x => { s.alloc with scanner := x }) (congrArg Scanner.markStale hwalk)
  · exact congrArg (fun x => { s.alloc with scanner := x }) (Scanner.markStale_other hother)
end

section
/-! SUPPORT. The tests of the dispatch (R183): the lengths of 11.3 as a table, and a request that a test turns away. -/

namespace Sys2Proof.Machine

/-- The kinds of request with their body lengths (11.3). -/
def requestLengths : List (Byte × Nat) :=
  [(0x01, 0), (0x02, 0), (0x03, 0), (0x04, 2), (0x05, 2), (0x10, 14), (0x11, 1), (0x12, 1), (0x13, 1), (0x14, 1), (0x15, 1),
    (0x16, 2), (0x20, 3), (0x21, 1), (0x30, 15), (0x31, 3), (0x32, 1), (0x33, 1)]

theorem requestBodyLength_of_mem {kind : Byte} {n : Nat} (h : (kind, n) ∈ requestLengths) :
    requestBodyLength kind = some n := by
  have htable : ∀ x ∈ requestLengths, requestBodyLength x.1 = some x.2 := by decide
  exact htable _ h

theorem requestBodyLength_none {kind : Byte} (h : ∀ x ∈ requestLengths, x.1 ≠ kind) : requestBodyLength kind = none := by
  simp only [requestLengths, List.forall_mem_cons, ne_comm (b := kind)] at h
  simp only [requestBodyLength, h, if_false]

variable {s : State} {kind tag : Byte} {body : List Byte} {rest : List Request} {owner : State → State}

theorem exec_unknownKind_taken (h : Takes s kind tag body rest) (hk : requestBodyLength kind = none) :
    exec (.unknownKind kind tag body) s = .next (answer tag .unknownKind [] (s.taken rest)) := by
  simp only [exec, execUnknownKind, hk, takeRequest_taken h]

theorem serve_badLength (h : Takes s kind tag body rest) (hl : requestBodyLength kind ≠ some body.length) :
    serve kind tag body owner s = answer tag .badLength [] (s.taken rest) := by
  simp only [serve, takeRequest_taken h, dispatch, if_pos hl]

theorem serve_notReady (h : Takes s kind tag body rest) (hl : requestBodyLength kind = some body.length)
    (hd : s.device = .init) (hk : answeredInInit kind = false) :
    serve kind tag body owner s = answer tag .notReady [] (s.taken rest) := by
  have hinit : (s.taken rest).device = .init ∧ answeredInInit kind = false := ⟨hd, hk⟩
  simp only [serve, takeRequest_taken h, dispatch, if_neg (not_not_intro hl), if_pos hinit]

theorem answeredInInit_eq_false (h1 : kind ≠ 0x01) (h2 : kind ≠ 0x02) : answeredInInit kind = false := by
  simp only [answeredInInit, h1, h2, decide_false, Bool.or_false]

end Sys2Proof.Machine

open Sys2Proof Sys2Proof.Machine

/-- Settles O39: the three tests in their order, over the table of 11.3. -/
theorem dispatchTurnsRequestsAway : Obligations.DispatchTurnsRequestsAway := by
  refine ⟨fun s kind tag body rest ht hk => exec_unknownKind_taken ht (requestBodyLength_none hk),
    fun s c q rest n hc ht hk hn => ?_, fun s c q rest n hc ht hk hn hd h1 h2 => ?_⟩
  · have hlength : requestBodyLength q.kind ≠ some q.body.length := by
      rw [requestBodyLength_of_mem hk]
      exact fun h => hn (Option.some.inj h).symm
    obtain ⟨owner, hexec⟩ := exec_request s c q hc
    exact hexec.trans (congrArg _ (serve_badLength ht hlength))
  · have hlength : requestBodyLength q.kind = some q.body.length := hn ▸ requestBodyLength_of_mem hk
    obtain ⟨owner, hexec⟩ := exec_request s c q hc
    exact hexec.trans (congrArg _ (serve_notReady ht hlength hd (answeredInInit_eq_false h1 h2)))
end

section
/-! SUPPORT. What goes out on the line: the check bit by bit (R169), the bytes that it covers (R181), and the flags bytes of
events (R185). -/

namespace Sys2Proof.Machine

/-! ### The frame check (R169) -/

/-- The bits of a byte in the order sent, most significant first. -/
def bitsOfByte (b : Byte) : List Bool := [7, 6, 5, 4, 3, 2, 1, 0].map (fun i => b.getLsbD i)

theorem checkBit_eq (crc : BitVec 16) (bit : Bool) :
    checkBit crc bit = if crc.msb ≠ bit then (crc <<< 1) ^^^ 0x1021 else crc <<< 1 :=
  if_congr Bool.xor_iff_ne rfl rfl

theorem checkByte_eq (crc : BitVec 16) (b : Byte) : checkByte crc b = (bitsOfByte b).foldl checkBit crc :=
  List.foldl_map.symm

theorem frameCheck_eq (bytes : List Byte) : frameCheck bytes = (bytes.flatMap bitsOfByte).foldl checkBit 0xFFFF := by
  rw [List.foldl_flatMap, frameCheck]
  simp only [← checkByte_eq]

/-! ### Outbound frames (R181) -/

/-- The bytes that the check covers: LENGTH, the header and the body. -/
def OutFrame.checked (f : OutFrame) : List Byte :=
  beBytes 2 (4 + f.body.length) ++ [f.type.code, f.tagOrKind, f.credit, f.statusOrSource] ++ f.body

theorem OutFrame.lineBytes_eq (f : OutFrame) :
    f.lineBytes = [0xA5] ++ f.checked ++ beBytes 2 (frameCheck f.checked).toNat := rfl

theorem OutFrame.checked_of_lineBytes (f : OutFrame) : f.lineBytes.tail.dropLast.dropLast = f.checked := by
  have htail : f.lineBytes.tail = f.checked ++ [_] ++ [_] := (List.append_assoc f.checked [_] [_]).symm
  rw [htail, List.dropLast_concat, List.dropLast_concat]

theorem FrameType.code_eq (t : FrameType) : t.code = if t = .reply then 0x01 else 0x02 := by cases t <;> rfl

theorem numberByte_val_toNat {n : Nat} (x : Fin n) (h : n ≤ 256) : (numberByte x.val).toNat = x.val :=
  Nat.mod_eq_of_lt (x.isLt.trans_le h)

/-! ### Flags bytes (R185) -/

theorem flagBits_one : ∀ b : Bool, flagBits [b] = if b then 1 else 0 := by decide

theorem flagBits_toNat_cons (b : Bool) (bs : List Bool) :
    (flagBits (b :: bs)).toNat = Nat.bit b (flagBits bs).toNat % 2 ^ 8 := by
  cases b <;> simp [flagBits, Nat.bit_val, Nat.add_comm]

/-- A flags byte holds its bits in their places, and zeros above them. -/
theorem flagBits_getLsbD (bits : List Bool) {i : Nat} (h : i < 8) : (flagBits bits).getLsbD i = bits.getD i false := by
  induction bits generalizing i with
  | nil => simp [flagBits]
  | cons b bs ih =>
    rw [BitVec.getLsbD, flagBits_toNat_cons, Nat.testBit_mod_two_pow, decide_eq_true h, Bool.true_and]
    cases i with
    | zero => exact Nat.testBit_bit_zero b _
    | succ i => exact (Nat.testBit_bit_succ i b _).trans (ih (by omega))

theorem flagBits_absent (b : Bool) : flagBits [b, false] = if b then 1 else 0 := by
  rw [flagBits_two]
  exact BitVec.add_zero _

theorem eventBody_starved (epoch : Byte) (count seq : Nat) (again : Bool) (windows : List WindowId) :
    ∃ flags : Byte, eventBody epoch count again (.starved seq windows) =
        [if again then 1 else 0] ++ beBytes 6 seq ++ [flags] ∧
      (∀ w : WindowId, flags.getLsbD w.val = decide (w ∈ windows)) ∧ ∀ i, 4 ≤ i → flags.getLsbD i = false := by
  refine ⟨flagBits ((List.finRange 4).map (fun w => decide (w ∈ windows))), ?_, fun w => ?_, fun i hi => ?_⟩
  · rw [eventBody, flagBits_one]
  · rw [flagBits_getLsbD _ (by omega)]
    simp
  · by_cases h8 : i < 8
    · rw [flagBits_getLsbD _ h8, List.getD_eq_default _ _ (by simpa using hi)]
    · exact BitVec.getLsbD_of_ge _ _ (by omega)

end Sys2Proof.Machine

open Sys2Proof Sys2Proof.Machine

/-- Settles O11: the check bit by bit, the frame by what its check covers, the codes by evaluation and the bodies by flags. -/
theorem frameLayouts : Obligations.FrameLayouts := by
  refine ⟨fun bytes => ?_, fun f => ⟨beBytes 2 (frameCheck f.checked).toNat, ?_, ?_⟩, fun r w p => ?_, rfl, rfl, rfl, rfl,
    rfl, rfl, rfl, rfl, rfl, rfl, rfl, rfl, rfl, rfl, rfl, fun epoch count again => ?_⟩
  · rw [frameCheck_eq]
    exact congrArg (List.foldl · _ _) (funext₂ checkBit_eq)
  · rw [← FrameType.code_eq]
    exact f.lineBytes_eq
  · rw [f.checked_of_lineBytes]
  · have hregion := numberByte_val_toNat r (by decide)
    have hwindow := numberByte_val_toNat w (by decide)
    have hport := numberByte_val_toNat p (by decide)
    simp only [List.map_cons, List.map_nil, EventKey.kindCode, EventKey.sourceCode, hregion, hwindow, hport]
    rfl
  · intro bit
    have hone : flagBits [again] = bit := flagBits_one again
    have hpresent : flagBits [again, true] = bit + 2 := flagBits_two again true
    have habsent : flagBits [again, false] = bit := flagBits_absent again
    -- A body is its flags byte and then fields that the statement writes as the model does.
    exact ⟨fun _ => congrArg (· :: _) hone, fun _ _ => congrArg (· :: _) hpresent, fun _ => congrArg (· :: _) habsent,
      fun _ _ _ => congrArg (· :: _) hone, fun _ _ => congrArg (· :: _) hone, fun _ _ _ => congrArg (· :: _) hpresent,
      fun _ _ => congrArg (· :: _) habsent, fun _ => congrArg (· :: _) hone,
      fun seq windows => eventBody_starved epoch count seq again windows, fun _ _ _ => congrArg (· :: _) hpresent,
      fun _ _ => congrArg (· :: _) habsent, fun _ _ => congrArg (· :: _) hone, fun _ => congrArg (· :: _) hone⟩
end

section
/-! SUPPORT. HARD_RESET (R190) at the DRAM it leaves (R18), and the two ends of RESTART: its three first stages (R191) and the six
behind its walk (R192). -/

namespace Sys2Proof.Machine

/-! ### The DRAM after a hard reset (R18) -/

theorem readyCauseOf_eq (cause : ResetCause) :
    readyCauseOf cause = match cause with | .powerOn => .power | .rstN => .pin := by
  cases cause <;> rfl

/-- A byte outside the span of the abandoned operation is as left. -/
theorem abandonedMemory_read {st : Store} (draw : Nat) {a : Nat}
    (h : ∀ op, st.port = some op → a < op.writeSpan.1 ∨ op.writeSpan.1 + op.writeSpan.2 ≤ a) :
    Memory.read (abandonedMemory st draw) a = Memory.read st.memory a := by
  unfold abandonedMemory
  split
  · rfl
  · next op hop => exact Memory.read_write_outside _ _ _ _ (by simpa using h op hop)

/-- So is the error that stands in a word outside it. -/
theorem abandonedErrors_wordError {st : Store} {n : Nat} (h : ∀ op, st.port = some op →
      n < op.writeSpan.1 / 8 ∨ op.writeSpan.1 / 8 + op.writeSpan.2 / 8 ≤ n) :
    wordError (abandonedErrors st) n = wordError st.errors n := by
  unfold abandonedErrors
  split
  · rfl
  · next op hop =>
    have houtside := h op hop
    rw [freshWords, wordError_setWordErrors, if_neg (by omega)]

/-! ### RESTART taken: stages 1 to 3 of R191 -/

section
variable {s : State} {w : WindowId}

theorem haltPorts_port (s : State) (p : PortId) :
    (haltPorts s).port p = { (stopNotice p s).port p with halted := true } := by
  simp [haltPorts, stopNotice]

/-- No writer is STARVED once RESTART has stopped them all. -/
theorem haltPorts_writer (s : State) (p : PortId) : ((haltPorts s).port p).writer ≠ .starved := by
  rw [haltPorts_port]
  simp [stopNotice, Port.stopped]

/-- A pin-end notice acts on a STARVED writer only (R115). -/
theorem pinEndNotice_none_starved {r : RegionId} (h : ∀ p, (s.port p).writer ≠ .starved) : pinEndNotice r s = s := by
  cases hb : (s.region r).boundPort with
  | none => exact pinEndNotice_unbound hb
  | some p => exact pinEndNotice_running hb (h p)

/-- A window's record as RESTART leaves it (R142). -/
def Window.restarted (x : Window) : Window :=
  match x.fetch with
  | some f => { x with fetch := some { f with endCause := some (f.endCause.getD .restart) } }
  | none => if x.state = .opened then x.shut else x

theorem Window.restarted_fetching {x : Window} {f : Fetch} (h : x.fetch = some f) :
    x.restarted = { x with fetch := some { f with endCause := some (f.endCause.getD .restart) } } := by
  simp only [Window.restarted, h]

theorem Window.restarted_opened {x : Window} (h : x.fetch = none) (ho : x.state = .opened) : x.restarted = x.shut := by
  simp only [Window.restarted, h, if_pos ho]

theorem Window.restarted_other {x : Window} (h : x.fetch = none) (ho : x.state ≠ .opened) : x.restarted = x := by
  simp only [Window.restarted, h, if_neg ho]

/-- With no writer STARVED the closing of a window sends no writer on, and nothing but its record changes. -/
theorem restartWindow_none_starved (h : ∀ p, (s.port p).writer ≠ .starved) :
    restartWindow s w = s.setWindow w (s.window w).restarted := by
  unfold restartWindow
  dsimp only
  split
  · next f hf => rw [Window.restarted_fetching hf]
  · next hf =>
    split
    · next ho =>
      rw [Window.restarted_opened hf ho]
      unfold becomeClosed
      dsimp only
      split
      · exact pinEndNotice_none_starved h
      · rfl
    · next ho => rw [Window.restarted_other hf ho, State.setWindow_self]

/-- The windows taken one after the other: each is taken by its own record. -/
theorem foldl_restartWindow {l : List WindowId} (hl : l.Nodup) (h : ∀ p, (s.port p).writer ≠ .starved) :
    ∃ windows, l.foldl restartWindow s = s.setWindows windows ∧
      ∀ w, windows.get w = if w ∈ l then (s.window w).restarted else s.window w := by
  induction l generalizing s with
  | nil => exact ⟨s.windows, rfl, fun w => by simp⟩
  | cons v vs ih =>
    obtain ⟨hv, hvs⟩ := List.nodup_cons.1 hl
    obtain ⟨windows, hfold, hget⟩ := ih (s := s.setWindow v (s.window v).restarted) hvs h
    refine ⟨windows, ?_, fun w => ?_⟩
    · rw [List.foldl_cons, restartWindow_none_starved h, hfold]
      rfl
    · rw [hget, State.setWindow_window]
      by_cases hw : w = v
      · subst hw
        simp [hv]
      · simp [hw]

theorem closeWindows_none_starved (h : ∀ p, (s.port p).writer ≠ .starved) :
    closeWindows s = s.setWindows (s.windows.map Window.restarted) := by
  obtain ⟨windows, hfold, hget⟩ := foldl_restartWindow (List.nodup_finRange 4) h
  have hmap : windows = s.windows.map Window.restarted :=
    vector_ext_get fun w => by simp [hget]
  rw [closeWindows, hfold, hmap]

/-- The device RESTARTING over a RESTART just taken, before its stages (R191). -/
def restartTaken (tag : Byte) (s : State) : State :=
  { s with device := .restarting, restart := some ⟨tag, false⟩, link := { s.link with engine := .held } }

/-- The ports and the windows are taken each by its own record; the other blocks are as the abandoned walk leaves them. -/
theorem beginRestart_blocks (tag : Byte) (s : State) :
    let t := beginRestart tag s
    let left := abandonRelease (restartTaken tag s)
    t.device = left.device ∧ t.restart = left.restart ∧ t.link = left.link ∧ t.events = left.events ∧
    t.alloc = left.alloc ∧ t.regions = left.regions ∧ t.store = left.store ∧ t.cache = left.cache ∧
    (∀ p, t.port p = { (stopNotice p left).port p with halted := true }) ∧
    ∀ w, t.window w = (left.window w).restarted := by
  intro t left
  have ht : t = (haltPorts left).setWindows (left.windows.map Window.restarted) :=
    closeWindows_none_starved (haltPorts_writer left)
  rw [ht]
  exact ⟨rfl, rfl, rfl, rfl, rfl, rfl, rfl, rfl, haltPorts_port left, vector_get_map Window.restarted left.windows⟩

theorem abandonRelease_walking {r : RegionId} {page n m : Nat} {tag : Byte} {stale : Bool}
    (h : s.alloc.scanner = .releaseWalk r page n m tag stale) : abandonRelease s =
    makeReply tag stale .aborted ([BitVec.ofNat 8 r.val] ++ beBytes 2 n ++ beBytes 2 m)
      { s with alloc := { s.alloc with scanner := .idle } } := by
  simp only [abandonRelease, h]
  rfl

theorem abandonRelease_quiet (h : ∀ r page n m tag stale, s.alloc.scanner ≠ .releaseWalk r page n m tag stale) :
    abandonRelease s = s := by
  unfold abandonRelease
  split
  · next hs => exact absurd hs (h _ _ _ _ _ _)
  · rfl

/-- Besides its reply and the scanner, the abandoned walk leaves every block. -/
theorem abandonRelease_frame (s : State) : (abandonRelease s).device = s.device ∧ (abandonRelease s).restart = s.restart ∧
    (abandonRelease s).regions = s.regions ∧ (abandonRelease s).store = s.store ∧ (abandonRelease s).cache = s.cache ∧
    (∀ p, (abandonRelease s).port p = s.port p) ∧ ∀ w, (abandonRelease s).window w = s.window w := by
  unfold abandonRelease
  split <;> simp

end

/-! ### The last examination of the restart walk (R28, R34) -/

section
variable {s : State} {page : Nat} {r : RegionId}

/-- A page's entry once the restart walk has examined it. -/
def PageEntry.examined : PageEntry → PageEntry
  | .owned _ true => .retired
  | .owned _ false => .free
  | e => e

theorem restartExamine_tableEntry (page q : Nat) (s : State) : tableEntry (restartExamine page s).alloc.table q =
    if q = page then (tableEntry s.alloc.table page).examined else tableEntry s.alloc.table q := by
  have kept {e : PageEntry} (he : tableEntry s.alloc.table page = e) :
      tableEntry s.alloc.table q = if q = page then e else tableEntry s.alloc.table q := by
    split
    · next hq => rw [hq, he]
    · rfl
  match he : tableEntry s.alloc.table page with
  | .free =>
    rw [restartExamine_leaves (by simp [he])]
    exact kept he
  | .retired =>
    rw [restartExamine_leaves (by simp [he])]
    exact kept he
  | .owned r false =>
    rw [restartExamine_returns he]
    exact tableEntry_tableSet ..
  | .owned r true =>
    rw [restartExamine_retires he]
    by_cases hl : s.alloc.retiredList.length < 512
    · rw [retireOwned_listed .restart hl]
      exact tableEntry_tableSet ..
    · rw [retireOwned_unlisted .restart (Nat.not_lt.1 hl)]
      exact tableEntry_tableSet ..

theorem restartExamine_listed (h : tableEntry s.alloc.table page = .owned r true) (hl : s.alloc.retiredList.length < 512) :
    (restartExamine page s).alloc.retiredList = s.alloc.retiredList ++ [⟨page, .restart, some r⟩] ∧
    (restartExamine page s).alloc.retiredIncomplete = s.alloc.retiredIncomplete := by
  rw [restartExamine_retires h, retireOwned_listed .restart hl]
  exact ⟨rfl, rfl⟩

theorem restartExamine_unlisted (h : tableEntry s.alloc.table page = .owned r true)
    (hl : 512 ≤ s.alloc.retiredList.length) :
    (restartExamine page s).alloc.retiredList = s.alloc.retiredList ∧
    (restartExamine page s).alloc.retiredIncomplete = true := by
  rw [restartExamine_retires h, retireOwned_unlisted .restart hl]
  exact ⟨rfl, rfl⟩

theorem restartExamine_unretired (h : ∀ r, tableEntry s.alloc.table page ≠ .owned r true) :
    (restartExamine page s).alloc.retiredList = s.alloc.retiredList ∧
    (restartExamine page s).alloc.retiredIncomplete = s.alloc.retiredIncomplete := by
  unfold restartExamine
  split
  · next r flag he =>
    obtain rfl : flag = false := by
      cases flag with
      | false => rfl
      | true => exact absurd he (h r)
    exact ⟨rfl, rfl⟩
  · exact ⟨rfl, rfl⟩

/-- The examination changes the allocator alone, and not its threshold. -/
theorem restartExamine_eq (page : Nat) (s : State) :
    restartExamine page s = { s with alloc := (restartExamine page s).alloc } ∧
    (restartExamine page s).alloc.threshold = s.alloc.threshold := by
  unfold restartExamine
  split
  · split
    · unfold retireOwned retirePage
      dsimp only
      split <;> exact ⟨rfl, rfl⟩
    · exact ⟨rfl, rfl⟩
  · exact ⟨rfl, rfl⟩

end

/-! ### RESTART completed: stages 1 to 6 of R192 -/

section
variable {s : State} {key : EventKey} {payload : Payload} {e : EventEntry}

/-- An entry pending after a raise was pending, or is of the key raised. -/
theorem raiseEvent_mem (h : e ∈ (raiseEvent key payload s).events.entries) :
    e.key = key ∨ ∃ d ∈ s.events.entries, d.key = e.key := by
  unfold raiseEvent at h
  split at h
  · exact .inr ⟨e, h, rfl⟩
  · have hkey : e.key ∈ (enqueue s.events.entries key payload).map (·.key) :=
      List.mem_map_of_mem ((arbitrate_entries _).subset h)
    rw [enqueue_keys] at hkey
    split at hkey
    · exact .inr (List.mem_map.1 hkey)
    · exact (List.mem_append.1 hkey).symm.imp List.mem_singleton.1 List.mem_map.1

/-- An evaluation of the pool notice adds no entry but a POOL_LOW (R36). -/
theorem evaluateNotice_mem (h : e ∈ (evaluateNotice s).events.entries) :
    e.key = .poolLow ∨ ∃ d ∈ s.events.entries, d.key = e.key := by
  unfold evaluateNotice at h
  split at h
  · exact .inr ⟨e, h, rfl⟩
  · split at h
    · split at h
      · exact raiseEvent_mem (s := s.setAlloc { s.alloc with armed := false }) h
      · exact .inr ⟨e, h, rfl⟩
    · split at h <;> exact .inr ⟨e, h, rfl⟩

/-- Stages 4 and 5 of R192: the event queue emptied and READY raised, then RUN with the pool notice armed and evaluated. -/
def restartRuns (s : State) : State :=
  let raised := raiseEvent .ready (.ready .restart) { s with events := { s.events with entries := [] } }
  evaluateNotice { raised with device := .run, alloc := { raised.alloc with armed := true } }

theorem restartRuns_mem (h : e ∈ (restartRuns s).events.entries) : e.key = .ready ∨ e.key = .poolLow := by
  obtain hlow | ⟨d, hd, hkey⟩ := evaluateNotice_mem h
  · exact .inr hlow
  · obtain hready | ⟨_, hnone, -⟩ := raiseEvent_mem (show d ∈ (restartEvents s).events.entries from hd)
    · exact .inl (hkey ▸ hready)
    · exact absurd hnone List.not_mem_nil

theorem restartRuns_reports (s : State) : (restartRuns s).reports .ready (.ready .restart) := by
  have hready : (restartEvents s).reports .ready (.ready .restart) := raiseEvent_reports rfl
  exact evaluateNotice_keeps nofun hready

theorem restartRuns_settled (h : (restartRuns s).alloc.armed = true) :
    (restartRuns s).alloc.threshold ≤ (restartRuns s).alloc.available :=
  evaluateNotice_settled rfl h

theorem restartRuns_restart (s : State) : (restartRuns s).restart = s.restart := by
  simp [restartRuns]

end

/-- Stages 1 to 3 of R192 behind the last examination: the allocator, the regions and the ports. -/
def restartRebuilt (s : State) : State :=
  { s with
    alloc := (finishRestartWalk s).alloc, regions := s.regions.map Region.restarted, ports := s.ports.map Port.cleared }

theorem restartCompletes_eq (s : State) : restartCompletes s = restartReply (restartRuns (restartRebuilt s)) := rfl

/-- The last step of the restart walk examines page 16383 and completes the RESTART. -/
theorem exec_restartWalkStep_last {s : State} (h : s.alloc.scanner = .restartWalk 16383) :
    exec .restartWalkStep s = .next (restartCompletes (restartExamine 16383 s)) := by
  simp only [exec, execRestartWalkStep, h]
  rfl

/-- Stage 6 of R192: the RESTART is answered and the engine runs again. -/
theorem restartReply_answers {s : State} {q : RunningRestart} (h : s.restart = some q) : restartReply s =
    { makeReply q.tag q.stale .ok [] s with
      restart := none, link := { (makeReply q.tag q.stale .ok [] s).link with engine := .running } } := by
  simp only [restartReply, h]
  rfl

theorem restartReply_unasked {s : State} (h : s.restart = none) :
    restartReply s = { s with restart := none, link := { s.link with engine := .running } } := by
  simp only [restartReply, h]
  rfl

end Sys2Proof.Machine

open Sys2Proof Sys2Proof.Machine

/-- Settles O5: the blocks of the reset state with the straps, over the DRAM as the abandoned operation leaves it. -/
theorem hardResetTakesResetValues : Obligations.HardResetTakesResetValues := by
  intro s cause rate mode
  refine ⟨_, rfl, rfl, rfl, rfl, rfl, readyCauseOf_eq cause, rfl, rfl, rfl, rfl, rfl, rfl, rfl, rfl, rfl, fun _ => rfl, rfl, rfl,
    rfl, rfl, rfl, rfl, rfl, rfl, rfl, rfl, State.reset_cache,
    fun r => ⟨State.reset_reservation r, State.reset_owned r, State.reset_region r⟩,
    fun p => ⟨State.reset_writes p, State.reset_port p⟩, fun w => ⟨State.reset_reads w, State.reset_window w⟩,
    fun a h => abandonedMemory_read s.freeCount h, fun n h => abandonedErrors_wordError h⟩

/-- Settles O35: the examination of page 16383 by its entry, then the stages of R192 by the blocks each rebuilds. -/
theorem restartCompletes : Obligations.RestartCompletes := by
  intro s hs last
  obtain ⟨hexamined, hthreshold⟩ := restartExamine_eq 16383 s
  have htable := restartExamine_tableEntry 16383 16383 s
  rw [if_pos rfl] at htable
  have hrebuilt : restartRebuilt (restartExamine 16383 s) = { s with
      alloc := (finishRestartWalk (restartExamine 16383 s)).alloc, regions := s.regions.map Region.restarted
      ports := s.ports.map Port.cleared } := by
    rw [hexamined]
    rfl
  refine ⟨(finishRestartWalk (restartExamine 16383 s)).alloc, s.regions.map Region.restarted, s.ports.map Port.cleared,
    fun page hp => ?_, fun h => ?_, fun r h => ?_, fun r h => ?_, fun r h hl => restartExamine_listed h hl,
    fun r h hl => restartExamine_unlisted h hl, restartExamine_unretired, rfl, rfl,
    fun r => ⟨vector_get_replicate 0 r, vector_get_replicate 0 r⟩, rfl, hthreshold, fun r h => ?_, fun r h => ?_,
    fun p => ?_, ?_⟩
  · exact (restartExamine_tableEntry 16383 page s).trans (if_neg hp)
  · refine htable.trans ?_
    rcases h with h | h <;> rw [show tableEntry s.alloc.table 16383 = _ from h]
    · exact h.symm
    · exact h.symm
  · exact htable.trans (congrArg PageEntry.examined h)
  · exact htable.trans (congrArg PageEntry.examined h)
  · rw [vector_get_map]
    exact if_pos h
  · rw [vector_get_map]
    exact if_neg h
  · exact vector_get_map Port.cleared s.ports p
  · intro raised u v
    have hu : u = restartRuns (restartRebuilt (restartExamine 16383 s)) := hrebuilt ▸ rfl
    have hrestart : u.restart = s.restart := by
      rw [hu, restartRuns_restart, hrebuilt]
    refine ⟨?_, fun e he => restartRuns_mem (hu ▸ he), hu ▸ restartRuns_reports _,
      fun harmed => hu ▸ restartRuns_settled (hu ▸ harmed)⟩
    rw [exec_restartWalkStep_last hs, restartCompletes_eq, ← hu]
    cases hq : s.restart with
    | none =>
      have hv : v = u := by simp only [v, hq]
      rw [restartReply_unasked (hrestart.trans hq), hv]
    | some q =>
      have hv : v = makeReply q.tag q.stale .ok [] u := by simp only [v, hq]
      rw [restartReply_answers (hrestart.trans hq), hv]

/-- Settles O42: the abandoned walk by what the scanner holds, each port and each window by its own record. -/
theorem restartBegins : Obligations.RestartBegins := by
  intro s tag rest h u
  have hexec : exec (.restart tag []) s = .next (beginRestart tag (s.taken rest)) := by
    simp only [exec, execRestart, serve_requested h rfl]
  have htaken : restartTaken tag (s.taken rest) = u := rfl
  obtain ⟨hdevice, hrestart, hregions, hstore, hcache, hport, hwindow⟩ := abandonRelease_frame u
  obtain ⟨tdevice, trestart, tlink, tevents, talloc, tregions, tstore, tcache, tport, twindow⟩ :=
    beginRestart_blocks tag (s.taken rest)
  rw [htaken] at tdevice trestart tlink tevents talloc tregions tstore tcache
  simp only [htaken, hwindow] at twindow
  refine ⟨_, hexec, tdevice.trans hdevice, trestart.trans hrestart, fun r page n m walkTag stale hs => ?_, fun hs => ?_,
    fun p => ?_, fun w hf ho => (twindow w).trans (Window.restarted_opened hf ho),
    fun w hf ho => (twindow w).trans (Window.restarted_other hf ho),
    fun w f hf => (twindow w).trans (Window.restarted_fetching hf), tregions.trans hregions, tstore.trans hstore,
    tcache.trans hcache⟩
  · intro v
    have hwalk : abandonRelease u = v := abandonRelease_walking hs
    rw [hwalk] at tlink tevents talloc
    exact ⟨tlink, tevents, talloc.trans (by simp [v])⟩
  · have hquiet : abandonRelease u = u := abandonRelease_quiet hs
    rw [hquiet] at tlink tevents talloc
    exact ⟨tlink, tevents, talloc⟩
  · rw [tport, htaken, stopNotice, stopNotice, State.setPort_port, State.setPort_port, if_pos rfl, if_pos rfl, hport]
    rfl
end

section
/-! SUPPORT. The device's own reads (11.5): the bodies that IDENTIFY, STATUS and RETIRED answer (R194, R195, R35). -/

namespace Sys2Proof.Machine

variable {s : State} {tag : Byte} {rest : List Request}

/-! ### IDENTIFY and STATUS (R194, R195) -/

theorem exec_identify_taken (h : Takes s 0x01 tag [] rest) :
    exec (.identify tag []) s = .next (makeReply tag false .ok (identifyBody s) (s.taken rest)) :=
  congrArg Host.Outcome.next (serve_always h rfl rfl)

theorem identifyBody_eq (s : State) : identifyBody s =
    [0x26, 0x40, 0x01] ++ beBytes 2 4096 ++ beBytes 2 16384 ++ beBytes 2 16368 ++ [16, 4, 4, 24, s.link.epoch] := rfl

theorem exec_status_taken (h : Takes s 0x02 tag [] rest) :
    exec (.status tag []) s = .next (makeReply tag false .ok (statusBody s) (s.taken rest)) :=
  congrArg Host.Outcome.next (serve_always h rfl rfl)

theorem vector_toList_eq_map_get {α : Type} {n : Nat} (v : Vector α n) : v.toList = (List.finRange n).map v.get := by
  refine List.ext_getElem (by simp) fun i _ _ => ?_
  simp only [Vector.getElem_toList, List.getElem_map, List.getElem_finRange]
  rfl

/-- The state codes close the body of STATUS, in the order of the region numbers. -/
theorem regionCodes_eq (s : State) :
    s.regions.toList.map (fun g => g.state.code) = (List.finRange 16).map (fun r => (s.region r).state.code) := by
  rw [vector_toList_eq_map_get, List.map_map]
  rfl

/-! ### RETIRED (R35, R186) -/

theorem exec_retired_requested {offset : Nat} (ho : offset < 65536) (h : Requested s 0x05 tag (beBytes 2 offset) rest) :
    exec (.retired tag (beBytes 2 offset)) s = .next (readRetired tag offset (s.taken rest)) := by
  have hfield : field (beBytes 2 offset) 0 2 = offset := by simpa using field_beBytes [] [] 2 offset ho
  simp only [exec, execRetired, serve_requested h rfl, hfield]

/-- An entry names its region, or 0xFF where the page belonged to none. -/
theorem retiredEntryBytes_eq (e : RetiredEntry) : retiredEntryBytes e =
    beBytes 2 e.page ++ [e.origin.code, match e.region with | none => 0xFF | some r => BitVec.ofNat 8 r.val] := by
  unfold retiredEntryBytes
  cases e.region <;> rfl

/-- Up to the end of the list the reply carries the entries from the offset on, at most 256 of them. -/
theorem readRetired_listed {offset : Nat} (h : offset ≤ s.alloc.retiredList.length) : readRetired tag offset s =
    makeReply tag false .ok (beBytes 2 s.alloc.retiredList.length ++ [flagBits [s.alloc.retiredIncomplete]]
      ++ beBytes 2 offset ++ beBytes 2 (min 256 (s.alloc.retiredList.length - offset))
      ++ ((s.alloc.retiredList.drop offset).take 256).flatMap retiredEntryBytes) s := by
  have hentries : (s.alloc.retiredList.drop offset).take (min 256 (s.alloc.retiredList.length - offset)) =
      (s.alloc.retiredList.drop offset).take 256 := by
    rw [← List.length_drop, ← List.take_take, List.take_length]
  rw [← hentries]
  exact if_pos h

/-- Past the end it carries the length and the flags, and zeros in the fields behind them (R184). -/
theorem readRetired_beyond {offset : Nat} (h : s.alloc.retiredList.length < offset) : readRetired tag offset s =
    makeReply tag false .badArg
      (beBytes 2 s.alloc.retiredList.length ++ [flagBits [s.alloc.retiredIncomplete], 0, 0, 0, 0]) s := by
  have hzeros : zeroFilled 7 (beBytes 2 s.alloc.retiredList.length ++ [flagBits [s.alloc.retiredIncomplete]]) =
      beBytes 2 s.alloc.retiredList.length ++ [flagBits [s.alloc.retiredIncomplete], 0, 0, 0, 0] := by
    simp [zeroFilled]
  rw [← hzeros]
  exact if_neg (Nat.not_le.2 h)

end Sys2Proof.Machine

open Sys2Proof Sys2Proof.Machine

/-- Settles O41: each read reaches its owner, which answers with the body of 11.5. -/
theorem deviceReadsAnswer : Obligations.DeviceReadsAnswer := by
  intro s tag rest incomplete listed
  have hflags : flagBits [s.alloc.retiredIncomplete] = incomplete := flagBits_one _
  refine ⟨fun h => ?_, fun h => ?_, fun offset ho h => ⟨fun hle => ?_, fun hlt => ?_⟩⟩
  · rw [exec_identify_taken h, identifyBody_eq]
  · rw [exec_status_taken h, statusBody, regionCodes_eq, hflags]
    rfl
  · rw [exec_retired_requested ho h, readRetired_listed (s := s.taken rest) hle]
    simp only [State.taken_alloc, hflags, funext retiredEntryBytes_eq]
    rfl
  · rw [exec_retired_requested ho h, readRetired_beyond (s := s.taken rest) hlt]
    simp only [State.taken_alloc, hflags]
    rfl
end

section
/-! SUPPORT. What a step runs, and the commands whose event cannot occur in the state: each of them idles, whichever other
operation is on the store's port and whatever else the scanner does (notes/assumptions/2.md, 3.md). -/

namespace Sys2Proof.Machine

variable {s : State}

/-! ### One step -/

theorem step_command {c : Instr} {rest : List Instr} (h : s.pending = c :: rest) :
    step s = exec c { s with pending := rest } := by
  rw [step, h]

theorem step_empty (h : s.pending = []) : step s = .next s := by
  rw [step, h]

/-! ### Completions with no operation of their kind on the port -/

theorem exec_sweepStepComplete_absent (h : ∀ page, s.store.port ≠ some (.sweepStep page))
    (words : List (Nat × WordRead)) : exec (.sweepStepComplete words) s = .next s := by
  rw [exec, execSweepStepComplete]
  split
  · next page hport => exact absurd hport (h page)
  · rfl

theorem exec_directoryClearComplete_absent (h : ∀ page, s.store.port ≠ some (.directoryClear page)) :
    exec .directoryClearComplete s = .next s := by
  rw [exec, execDirectoryClearComplete]
  split
  · next page hport => exact absurd hport (h page)
  · rfl

theorem exec_recordWriteComplete_absent (h : ∀ p op, s.store.port ≠ some (.recordWrite p op)) :
    exec .recordWriteComplete s = .next s := by
  rw [exec, execRecordWriteComplete]
  split
  · next p op hport => exact absurd hport (h p op)
  · rfl

theorem exec_directoryReadComplete_absent
    (h : ∀ r slot who, s.store.port ≠ some (.directory (.read r slot who))) (word : WordRead) :
    exec (.directoryReadComplete word) s = .next s := by
  rw [exec, execDirectoryReadComplete]
  split
  · next r slot who hport => exact absurd hport (h r slot who)
  · rfl

theorem exec_directoryWriteComplete_absent
    (h : ∀ r slot page p, s.store.port ≠ some (.directory (.write r slot page p))) (word : WordRead) :
    exec (.directoryWriteComplete word) s = .next s := by
  rw [exec, execDirectoryWriteComplete]
  split
  · next r slot page p hport => exact absurd hport (h r slot page p)
  · rfl

theorem exec_recordReadComplete_absent (h : ∀ w op, s.store.port ≠ some (.recordRead w op))
    (words : List (Nat × WordOutcome)) : exec (.recordReadComplete words) s = .next s := by
  rw [exec, execRecordReadComplete]
  split
  · next w op hport => exact absurd hport (h w op)
  · rfl

/-! ### Walk steps with the scanner elsewhere -/

theorem exec_releaseWalkStep_absent
    (h : ∀ r page returned retired tag stale, s.alloc.scanner ≠ .releaseWalk r page returned retired tag stale) :
    exec .releaseWalkStep s = .next s := by
  rw [exec, execReleaseWalkStep]
  split
  · next r page returned retired tag stale hscanner => exact absurd hscanner (h r page returned retired tag stale)
  · rfl

theorem exec_restartWalkStep_absent (h : ∀ page, s.alloc.scanner ≠ .restartWalk page) :
    exec .restartWalkStep s = .next s := by
  rw [exec, execRestartWalkStep]
  split
  · next page hscanner => exact absurd hscanner (h page)
  · rfl

/-! ### The line -/

/-- In HUNT no inter-byte timer runs (R170). -/
theorem interByteTimerRunning_of_hunt {l : Link} (h : l.kept = []) : interByteTimerRunning l = false := by
  simp [interByteTimerRunning, phaseOf, h]

theorem exec_interByteTimeout_hunt (h : s.link.kept = []) : exec .interByteTimeout s = .next s :=
  if_neg (Bool.eq_false_iff.1 (interByteTimerRunning_of_hunt h))

theorem exec_transmitFrameEnd_absent (h : s.link.transmitting = none) : exec .transmitFrameEnd s = .next s := by
  rw [exec, execTransmitFrameEnd, h]

/-! ### Requests that the engine cannot take (R179) -/

theorem exec_request_untaken {c : Instr} {q : Request} (hc : c.request = some q)
    (h : s.link.engine = .held ∨ s.link.requests.head? ≠ some q) : exec c s = .next s := by
  obtain ⟨owner, hexec⟩ := exec_request s c q hc
  rw [hexec, serve_none h]

theorem exec_unknownKind_untaken {kind tag : Byte} {body : List Byte}
    (h : s.link.engine = .held ∨ s.link.requests.head? ≠ some ⟨kind, tag, body⟩) :
    exec (.unknownKind kind tag body) s = .next s := by
  rw [exec, execUnknownKind, takeRequest_none h]
  cases requestBodyLength kind <;> rfl

end Sys2Proof.Machine

open Sys2Proof Sys2Proof.Machine

/-- Settles O1: the two cases of the queue. -/
theorem stepRunsTheFrontCommand : Obligations.StepRunsTheFrontCommand :=
  ⟨fun _ _ _ => step_command, fun _ => step_empty⟩

/-- Settles O3: event by event, each command finds nothing that it could act on. -/
theorem impossibleEventsChangeNothing : Obligations.ImpossibleEventsChangeNothing := by
  intro s
  dsimp only
  rw [← Store.idle_iff]
  exact ⟨exec_sweepStepComplete_absent, exec_directoryClearComplete_absent, exec_recordWriteComplete_absent,
    exec_directoryReadComplete_absent, exec_directoryWriteComplete_absent, exec_recordReadComplete_absent,
    exec_releaseWalkStep_absent, exec_restartWalkStep_absent, exec_restartWalkBegin_waits, exec_interByteTimeout_hunt,
    exec_transmitFrameEnd_absent, fun _ _ => exec_request_untaken, fun _ _ _ => exec_unknownKind_untaken⟩
end
